-- ==== Sys2Proof/Word.lean ====
section
/-! DEFINITION. The word types: bytes, 32-bit bus words, and the 4-byte words of keys and columns. -/

namespace Sys2Proof

/-- A byte, the unit of every memory window. -/
abbrev Byte := BitVec 8

/-- A 32-bit register or bus word (20_memory.md R70, R73). -/
abbrev Word := BitVec 32

/-- A sequence of 4 bytes, byte 0 first: a key-schedule word (w0, w1, w2, w3) (00_scope.md R11, 20_memory.md R72)
or a column of the state matrix, the byte of row r as byte r (41_tables_operators.md R157). -/
structure Quad where
  b0 : Byte
  b1 : Byte
  b2 : Byte
  b3 : Byte
deriving DecidableEq, Repr

/-- Four zero bytes. -/
def Quad.zero : Quad := ⟨0, 0, 0, 0⟩

/-- Bytewise exclusive-or of two 4-byte words (42_key_schedule.md R183, 43_block_transform.md R205). -/
def Quad.xor (p q : Quad) : Quad := ⟨p.b0 ^^^ q.b0, p.b1 ^^^ q.b1, p.b2 ^^^ q.b2, p.b3 ^^^ q.b3⟩

/-- Apply a byte function to each of the 4 bytes. -/
def Quad.map (f : Byte → Byte) (q : Quad) : Quad := ⟨f q.b0, f q.b1, f q.b2, f q.b3⟩

end Sys2Proof
end

