-- ==== Sys2Proof/Syntax.lean ====
section
/-! DEFINITION. The commands of CORE: one constructor per row of the opcode map (30_encoding.md R105). -/

namespace Sys2Proof

/-- Which key schedule ADD_ROUND_KEY adds: field SEL, 0 = A, 1 = B (30_encoding.md R102). -/
inductive Sched where
  | a
  | b
deriving DecidableEq, Repr

/-- A command. Operands are not in the word but in the registers and windows each command's rule names
(30_encoding.md R100, R104); only ADD_ROUND_KEY has fields. -/
inductive Instr where
  /-- NOP, OPC 0x00 (45_control.md R270). -/
  | nop
  /-- GF_MUL, OPC 0x01 (40_gf_engine.md R132). -/
  | gfMul
  /-- GF_MOD, OPC 0x02 (40_gf_engine.md R133). -/
  | gfMod
  /-- GF_DIV, OPC 0x03 (40_gf_engine.md R134). -/
  | gfDiv
  /-- GF_GCD, OPC 0x04 (40_gf_engine.md R135). -/
  | gfGcd
  /-- GF_INV, OPC 0x05 (40_gf_engine.md R136). -/
  | gfInv
  /-- GF_MULMOD, OPC 0x06 (40_gf_engine.md R137). -/
  | gfMulmod
  /-- SBOX, OPC 0x10 (41_tables_operators.md R167). -/
  | sbox
  /-- INV_SBOX, OPC 0x11 (41_tables_operators.md R168). -/
  | invSbox
  /-- MIXCOL, OPC 0x12 (41_tables_operators.md R169). -/
  | mixcol
  /-- INV_MIXCOL, OPC 0x13 (41_tables_operators.md R170). -/
  | invMixcol
  /-- ALT_MIXCOL, OPC 0x14 (41_tables_operators.md R171). -/
  | altMixcol
  /-- INV_ALT_MIXCOL, OPC 0x15 (41_tables_operators.md R172). -/
  | invAltMixcol
  /-- RCON, OPC 0x16 (41_tables_operators.md R173). -/
  | rcon
  /-- KEY_EXPAND, OPC 0x20 (42_key_schedule.md R190). -/
  | keyExpand
  /-- KEY_EXPAND_ROT, OPC 0x21 (42_key_schedule.md R191). -/
  | keyExpandRot
  /-- KEY_EXPAND_NOROT, OPC 0x22 (42_key_schedule.md R192). -/
  | keyExpandNorot
  /-- SUB_BYTES, OPC 0x31 (43_block_transform.md R215). -/
  | subBytes
  /-- INV_SUB_BYTES, OPC 0x32 (43_block_transform.md R216). -/
  | invSubBytes
  /-- SHIFT_ROWS, OPC 0x33 (43_block_transform.md R217). -/
  | shiftRows
  /-- INV_SHIFT_ROWS, OPC 0x34 (43_block_transform.md R218). -/
  | invShiftRows
  /-- MIX_COLUMNS, OPC 0x35 (43_block_transform.md R219). -/
  | mixColumns
  /-- INV_MIX_COLUMNS, OPC 0x36 (43_block_transform.md R220). -/
  | invMixColumns
  /-- ALT_MIX_COLUMNS, OPC 0x37 (43_block_transform.md R221). -/
  | altMixColumns
  /-- INV_ALT_MIX_COLUMNS, OPC 0x38 (43_block_transform.md R222). -/
  | invAltMixColumns
  /-- ADD_ROUND_KEY A|B, rnd, OPC 0x39, format K: SEL and RND, a round index 0 to 15 (43_block_transform.md R223, 30_encoding.md R102). -/
  | addRoundKey (sel : Sched) (rnd : Nat)
  /-- ENCRYPT_BLOCK, OPC 0x3A (43_block_transform.md R224). -/
  | encryptBlock
  /-- DECRYPT_BLOCK, OPC 0x3B (43_block_transform.md R225). -/
  | decryptBlock
  /-- ECB_ENCRYPT, OPC 0x40 (44_ecb_frame.md R246). -/
  | ecbEncrypt
  /-- ECB_DECRYPT, OPC 0x41 (44_ecb_frame.md R250). -/
  | ecbDecrypt
  /-- PAD, OPC 0x42 (44_ecb_frame.md R245). -/
  | pad
  /-- CONFIGURE, OPC 0x50 (45_control.md R272). -/
  | configure
deriving DecidableEq, Repr

end Sys2Proof
end

