-- ==== Sys2Proof/WellFormed.lean ====
section
/-! DEFINITION. Which commands the encoding admits. -/

namespace Sys2Proof

/-- RND is "round index, 0 to 15 as an unsigned 4-bit number" (30_encoding.md R102); no other command has a field
(R101). -/
def Instr.wellFormed : Instr → Bool
  | .nop => true
  | .gfMul => true
  | .gfMod => true
  | .gfDiv => true
  | .gfGcd => true
  | .gfInv => true
  | .gfMulmod => true
  | .sbox => true
  | .invSbox => true
  | .mixcol => true
  | .invMixcol => true
  | .altMixcol => true
  | .invAltMixcol => true
  | .rcon => true
  | .keyExpand => true
  | .keyExpandRot => true
  | .keyExpandNorot => true
  | .subBytes => true
  | .invSubBytes => true
  | .shiftRows => true
  | .invShiftRows => true
  | .mixColumns => true
  | .invMixColumns => true
  | .altMixColumns => true
  | .invAltMixColumns => true
  | .addRoundKey _ rnd => rnd < 16
  | .encryptBlock => true
  | .decryptBlock => true
  | .ecbEncrypt => true
  | .ecbDecrypt => true
  | .pad => true
  | .configure => true

end Sys2Proof
end

