-- ==== Sys2Proof/Decode.lean ====
section
/-! DEFINITION. Decoding a command word, total on every 32-bit word, and encoding a command
(30_encoding.md R100 to R107). -/

namespace Sys2Proof

/-- Why a word is illegal: the three cases of 30_encoding.md R106. -/
inductive Illegal where
  /-- (a) OPC is a reserved opcode. -/
  | reservedOpcode
  /-- (b) OPC is a format-N opcode and CMD[31:8] is not 0. -/
  | formatNBits
  /-- (c) OPC is 0x39 and CMD[15:9] or CMD[31:20] is not 0. -/
  | formatKBits
deriving DecidableEq, Repr

/-- The opcode map's rows for format N (30_encoding.md R105): control and GF Engine. -/
def opcodesGf : List (Nat × Instr) :=
  [(0x00, .nop),
   (0x01, .gfMul),
   (0x02, .gfMod),
   (0x03, .gfDiv),
   (0x04, .gfGcd),
   (0x05, .gfInv),
   (0x06, .gfMulmod)]

/-- Cipher Tables and Key Schedule. -/
def opcodesTables : List (Nat × Instr) :=
  [(0x10, .sbox),
   (0x11, .invSbox),
   (0x12, .mixcol),
   (0x13, .invMixcol),
   (0x14, .altMixcol),
   (0x15, .invAltMixcol),
   (0x16, .rcon),
   (0x20, .keyExpand),
   (0x21, .keyExpandRot),
   (0x22, .keyExpandNorot)]

/-- Block Transform, but for ADD_ROUND_KEY, which is format K. -/
def opcodesBlock : List (Nat × Instr) :=
  [(0x31, .subBytes),
   (0x32, .invSubBytes),
   (0x33, .shiftRows),
   (0x34, .invShiftRows),
   (0x35, .mixColumns),
   (0x36, .invMixColumns),
   (0x37, .altMixColumns),
   (0x38, .invAltMixColumns),
   (0x3A, .encryptBlock),
   (0x3B, .decryptBlock)]

/-- ECB Framing and CONFIGURE. -/
def opcodesFrame : List (Nat × Instr) :=
  [(0x40, .ecbEncrypt),
   (0x41, .ecbDecrypt),
   (0x42, .pad),
   (0x50, .configure)]

/-- All format-N rows of 30_encoding.md R105. -/
def opcodesN : List (Nat × Instr) := opcodesGf ++ opcodesTables ++ opcodesBlock ++ opcodesFrame

/-- OPC, bits [7:0] (30_encoding.md R101). -/
def opcField (w : Word) : Nat := (w.extractLsb' 0 8).toNat

/-- SEL, bit [8]: 0 = schedule A, 1 = schedule B (30_encoding.md R102, R103). -/
def selField (w : Word) : Sched := if w.extractLsb' 8 1 = 0 then .a else .b

/-- RND, bits [19:16], zero-extended (30_encoding.md R102, R103). -/
def rndField (w : Word) : Nat := (w.extractLsb' 16 4).toNat

/-- The decoder of 30_encoding.md R107. -/
def decode (w : Word) : Except Illegal Instr :=
  if opcField w = 0x39 then
    if w.extractLsb' 9 7 = 0 ∧ w.extractLsb' 20 12 = 0 then .ok (.addRoundKey (selField w) (rndField w))
    else .error .formatKBits
  else
    match opcodesN.lookup (opcField w) with
    | none => .error .reservedOpcode
    | some i => if w.extractLsb' 8 24 = 0 then .ok i else .error .formatNBits

/-- The word of an ADD_ROUND_KEY: "(RND << 16) | (SEL << 8) | 0x39" (30_encoding.md R105). -/
def encodeK (sel : Sched) (rnd : Nat) : Word :=
  (BitVec.ofNat 32 rnd <<< 16) ||| (BitVec.ofNat 32 (match sel with | .a => 0 | .b => 1) <<< 8) ||| 0x39#32

/-- The command word of a command (30_encoding.md R101, R102, R105). -/
def encode : Instr → Word
  | .nop => 0x00000000#32
  | .gfMul => 0x00000001#32
  | .gfMod => 0x00000002#32
  | .gfDiv => 0x00000003#32
  | .gfGcd => 0x00000004#32
  | .gfInv => 0x00000005#32
  | .gfMulmod => 0x00000006#32
  | .sbox => 0x00000010#32
  | .invSbox => 0x00000011#32
  | .mixcol => 0x00000012#32
  | .invMixcol => 0x00000013#32
  | .altMixcol => 0x00000014#32
  | .invAltMixcol => 0x00000015#32
  | .rcon => 0x00000016#32
  | .keyExpand => 0x00000020#32
  | .keyExpandRot => 0x00000021#32
  | .keyExpandNorot => 0x00000022#32
  | .subBytes => 0x00000031#32
  | .invSubBytes => 0x00000032#32
  | .shiftRows => 0x00000033#32
  | .invShiftRows => 0x00000034#32
  | .mixColumns => 0x00000035#32
  | .invMixColumns => 0x00000036#32
  | .altMixColumns => 0x00000037#32
  | .invAltMixColumns => 0x00000038#32
  | .addRoundKey sel rnd => encodeK sel rnd
  | .encryptBlock => 0x0000003A#32
  | .decryptBlock => 0x0000003B#32
  | .ecbEncrypt => 0x00000040#32
  | .ecbDecrypt => 0x00000041#32
  | .pad => 0x00000042#32
  | .configure => 0x00000050#32

/-- The host's view of the decoder: a table row's instruction whose bits are w. CORE's command word is one 32-bit
word, written whole to CMD (30_encoding.md R100). -/
def decodeTableWord (nbits w : Nat) : Option Instr :=
  match decode (BitVec.ofNat 32 (w % 2 ^ nbits)) with
  | .ok i => some i
  | .error _ => none

end Sys2Proof
end

