-- ==== Sys2Proof/Config.lean ====
section
/-! DEFINITION. What one implementation of CORE fixes, and the free values (00_scope.md R6, R18;
93_implementation_defined.md part 1). A constant with no body is open: a claim holds whatever it is. -/

namespace Sys2Proof.Config

/-- Behind BUF_BYTES, an OPEN parameter (00_scope.md R6). DESIGN CHOICE, log 1. -/
opaque bufUnits : Nat

/-- BUF_BYTES: "a multiple of 96, with 96 <= BUF_BYTES <= 65472" (00_scope.md R6); every such value is the value of
this expression for some bufUnits, and no other is. Safe. Log 1. -/
def bufBytes : Nat := 96 * (bufUnits % 682) + 96

/-- RCON0, the OPEN entry RCON[0] (41_tables_operators.md R161). Safe. Log 2. -/
opaque rcon0 : Byte

/-- NR_TABLE, a parameter whose entry [0][0] alone is fixed: behind the entry for a key class and a block class
(41_tables_operators.md R164, R166). Safe. Log 3. -/
opaque nrEntry : Nat → Nat → Nat

/-- CORE_BASE, the platform address of offset 0, OPEN (20_memory.md R70). Safe. Log 17. -/
opaque coreBase : Nat

/-- ELAPSED_FN: what ELAPSED takes at a completion, a draw (60_exceptions.md R316). The argument numbers the draw.
Safe. Log 4. -/
opaque elapsedFn : Nat → Word

/-- What a host read of a location other than ID, STATUS and CTRL returns while BUSY = 1, a draw (20_memory.md R81).
Safe. Log 5. -/
opaque busyRead : Nat → Word

/-- What an unspecified byte holds: the number of the draw and the byte's offset (10_state.md R44, R46). Safe.
Log 7, log 8. -/
opaque unspecifiedByte : Nat → Nat → Byte

/-- How many host moves fall between a command's acceptance and its completion at the latest
(70_reset_and_hazards.md R350, R351): finite, otherwise open. DESIGN CHOICE, safe. Log 10. -/
opaque completionDelay : Nat → Nat

end Sys2Proof.Config
end

