-- ==== Sys2Proof/Machine/State.lean ====
section
/-! DEFINITION. The state of CORE as plain data, the reasons a step can stop, and the state after reset
(10_state.md; INVENTORY.md lists every field with its rule). -/

namespace Sys2Proof.Machine

/-- Why the machine stops. CORE itself never traps (60_exceptions.md R307); each of these is a fault of the model by
60_exceptions.md R309, and safe: the hardware goes on where the model stops. -/
inductive Fault where
  /-- The bus, at a host access whose offset has bits [1:0] other than 0: a bus error (20_memory.md R74, R75).
  Safe. Log 16. -/
  | busMisaligned (off : Nat)
  /-- The bus, at a host access to a reserved offset: a bus error (20_memory.md R75, R76). Safe. Log 16. -/
  | busReserved (off : Nat)
  /-- A host read or a command, at the offset of a byte nothing has written since reset, which holds no value
  (20_memory.md R90, 70_reset_and_hazards.md R342). Safe. Log 6. -/
  | unwrittenByte (off : Nat)
deriving DecidableEq, Repr

/-- Why the machine refuses. -/
inductive Refusal where
  /-- Raised by the dispatch for a command that has no meaning yet, by its mnemonic. Safe. No command is. -/
  | notModelled (mnemonic : String)
deriving DecidableEq, Repr

/-- What STATUS.ERR holds (60_exceptions.md R302): the codes 0 to 6; codes 7 to 15 are never written. -/
inductive ErrCode where
  /-- 0: the command completed. -/
  | ok
  /-- 1: the command word is illegal. -/
  | illegalCmd
  /-- 2: OPM = 0 where a modulus or divisor is needed. -/
  | zeroModulus
  /-- 3: KEY_LEN below the least key length. -/
  | keyLength
  /-- 4: a length beyond a buffer, or a ciphertext length that is no whole number of blocks. -/
  | length
  /-- 5: a schedule the command reads is not valid. -/
  | noSchedule
  /-- 6: an index beyond its table. -/
  | range
deriving DecidableEq, Repr

/-- A size class: 128, 192 or 256 bits, that is 4, 6 or 8 words (41_tables_operators.md R163). The CFG fields NB and
NK "never hold other values" (10_state.md R25). -/
inductive SizeClass where
  | bits128
  | bits192
  | bits256
deriving DecidableEq, Repr

/-- STATUS (10_state.md R24); its reserved bits read 0 and are not held. -/
structure Status where
  busy : Bool
  done : Bool
  err : ErrCode
  ksaValid : Bool
  ksbValid : Bool
  errSticky : Bool
  busyViol : Bool
deriving DecidableEq, Repr

/-- CFG (10_state.md R25): NB and NK as size classes, NR as the 8-bit field; CFG[31:16] reads 0 and is not held. -/
structure Cfg where
  nb : SizeClass
  nk : SizeClass
  nr : BitVec 8
deriving DecidableEq, Repr

/-- One move of the host (00_scope.md R16, R17). Offsets are CORE's 18-bit bus offsets (20_memory.md R70). -/
inductive HostMove where
  /-- One 32-bit bus write. -/
  | write (off : BitVec 18) (v : Word)
  /-- One 32-bit bus read. -/
  | read (off : BitVec 18)
  /-- The body of the WAIT loop: read STATUS, and go round again while bit 0 is 1 (30_encoding.md R109). Log 19. -/
  | poll
  /-- Look at the IRQ line, and go on looking while it is 0 (60_exceptions.md R310, R313). Log 19. -/
  | awaitIrq
  /-- The reset input is asserted (70_reset_and_hazards.md R340, R341). Log 12. -/
  | reset
deriving DecidableEq, Repr

/-- The byte memory of all windows, keyed by bus offset, offsets strictly rising. An offset that is not listed holds
no value (20_memory.md R90; log 6, log 24). -/
abbrev Memory := List Host.Cell

/-- The canonical form of a memory: offsets strictly rising. -/
abbrev Memory.wf (m : Memory) : Prop := m.Pairwise (fun c d => c.1 < d.1)

/-- Everything the machine holds. ID and CMD hold nothing (10_state.md R22, R23) and IRQ is computed (R49). -/
structure State where
  /-- STATUS, R24. -/
  status : Status
  /-- CTRL.IE, R27. -/
  ie : Bool
  /-- CFG_REQ, R26. -/
  cfgReq : Word
  /-- CFG, R25. -/
  cfg : Cfg
  /-- OPA, R28. -/
  opa : Word
  /-- OPB, R29. -/
  opb : Word
  /-- OPM, R30. -/
  opm : Word
  /-- RES0, R31. -/
  res0 : Word
  /-- RES1, R32. -/
  res1 : Word
  /-- RES2, R33. -/
  res2 : Word
  /-- KEY_LEN, R34. -/
  keyLen : Word
  /-- IN_LEN, R35. -/
  inLen : Word
  /-- OUT_LEN, R36. -/
  outLen : Word
  /-- ELAPSED, R37. -/
  elapsed : Word
  /-- STATE, KEY_BUF, SCHED_A, SCHED_B, MSG_IN and MSG_OUT, R38 to R46. -/
  mem : Memory
  /-- The pending command word, R47. -/
  pending : Option Word
  /-- The model's own: the host's remaining moves (00_scope.md R16, R19). Log 9. -/
  host : List HostMove
  /-- The model's own: the data the host's last read returned. Log 9. -/
  rdata : Option Word
  /-- The model's own: host moves that may still fall before the pending command completes. Log 10. -/
  delay : Nat
  /-- The model's own: how many draws have been taken (00_scope.md R18). Log 13. -/
  draws : Nat
deriving DecidableEq, Repr

/-- The state after reset (70_reset_and_hazards.md R340, R342). The model's own fields: log 13, log 14. -/
def State.reset : State where
  status := { busy := false, done := false, err := .ok, ksaValid := false, ksbValid := false,
              errSticky := false, busyViol := false }
  ie := false
  cfgReq := 0
  cfg := { nb := .bits128, nk := .bits128, nr := 10 }
  opa := 0
  opb := 0
  opm := 0
  res0 := 0
  res1 := 0
  res2 := 0
  keyLen := 0
  inLen := 0
  outLen := 0
  elapsed := 0
  mem := []
  pending := none
  host := []
  rdata := none
  delay := 0
  draws := 0

end Sys2Proof.Machine
end

