-- ==== Sys2Proof/Machine/Params.lean ====
section
/-! DEFINITION. The parameters of 00_scope.md R6 as the machine reads them, and the register map of 10_state.md R20. -/

namespace Sys2Proof.Machine

/-- BUF_BYTES, the size of MSG_IN (00_scope.md R6). Log 1. -/
def bufBytes : Nat := Config.bufBytes

/-- OUT_BYTES = BUF_BYTES + 32, the size of MSG_OUT (00_scope.md R6). -/
def outBytes : Nat := bufBytes + 32

/-- KEY_BUF_BYTES (00_scope.md R6). -/
def keyBufBytes : Nat := 64

/-- SCHED_WORDS, per schedule (00_scope.md R6). -/
def schedWords : Nat := 120

/-- RCON0 (41_tables_operators.md R161). Log 2. -/
def rcon0 : Byte := Config.rcon0

/-- The word count of a size class, 4 + 2*c (41_tables_operators.md R163). -/
def SizeClass.words : SizeClass → Nat
  | .bits128 => 4
  | .bits192 => 6
  | .bits256 => 8

/-- NB as a number of words (10_state.md R25). -/
def Cfg.nbWords (c : Cfg) : Nat := c.nb.words

/-- NK as a number of words (10_state.md R25). -/
def Cfg.nkWords (c : Cfg) : Nat := c.nk.words

/-- NR as a number (10_state.md R25). -/
def Cfg.rounds (c : Cfg) : Nat := c.nr.toNat

/-- The length of a key schedule in words, (NR+1)*NB (00_scope.md R7). -/
def Cfg.schedLen (c : Cfg) : Nat := (c.rounds + 1) * c.nbWords

/-- T, the block length in bytes, 4*NB (00_scope.md R7). -/
def Cfg.blockBytes (c : Cfg) : Nat := 4 * c.nbWords

/-- The registers of 10_state.md R20. -/
inductive Reg where
  | id | cmd | status | ctrl | cfgReq | cfg | opa | opb | opm | res0 | res1 | res2 | keyLen | inLen | outLen | elapsed
deriving DecidableEq, Repr

/-- The windows of 10_state.md R20. -/
inductive Window where
  | state | keyBuf | schedA | schedB | msgIn | msgOut
deriving DecidableEq, Repr

/-- A register's bus offset (10_state.md R20). -/
def Reg.offset : Reg → Nat
  | .id => 0x000
  | .cmd => 0x004
  | .status => 0x008
  | .ctrl => 0x00C
  | .cfgReq => 0x010
  | .cfg => 0x014
  | .opa => 0x018
  | .opb => 0x01C
  | .opm => 0x020
  | .res0 => 0x024
  | .res1 => 0x028
  | .res2 => 0x02C
  | .keyLen => 0x030
  | .inLen => 0x034
  | .outLen => 0x038
  | .elapsed => 0x03C

/-- A window's first bus offset (10_state.md R20). -/
def Window.base : Window → Nat
  | .state => 0x040
  | .keyBuf => 0x100
  | .schedA => 0x200
  | .schedB => 0x400
  | .msgIn => 0x10000
  | .msgOut => 0x20000

/-- A window's size in bytes (10_state.md R20). -/
def Window.size : Window → Nat
  | .state => 32
  | .keyBuf => keyBufBytes
  | .schedA => 4 * schedWords
  | .schedB => 4 * schedWords
  | .msgIn => bufBytes
  | .msgOut => outBytes

/-- Whether a bus offset lies in a window. -/
def Window.contains (w : Window) (off : Nat) : Bool := w.base ≤ off && off - w.base < w.size

/-- Whether the host may write a window's bytes (10_state.md R20; the others ignore writes, 20_memory.md R77). -/
def Window.hostWritable : Window → Bool
  | .state => true
  | .keyBuf => true
  | .schedA => false
  | .schedB => false
  | .msgIn => true
  | .msgOut => false

/-- The window of a schedule (10_state.md R41, R42). -/
def schedWindow : Sched → Window
  | .a => .schedA
  | .b => .schedB

/-- Where a bus offset lies in the platform's address space (20_memory.md R70). Log 17. -/
def platformAddress (off : BitVec 18) : Nat := Config.coreBase + off.toNat

end Sys2Proof.Machine
end

