-- ==== Sys2Proof/Machine/Flags.lean ====
section
/-! DEFINITION. The status, control and configuration registers as words, and everything that sets or clears a
STATUS bit (10_state.md R24, R25, R27, R49; 60_exceptions.md R300 to R302). -/

namespace Sys2Proof.Machine

/-- The error codes of 60_exceptions.md R302. -/
def ErrCode.code : ErrCode → BitVec 4
  | .ok => 0
  | .illegalCmd => 1
  | .zeroModulus => 2
  | .keyLength => 3
  | .length => 4
  | .noSchedule => 5
  | .range => 6

/-- STATUS as the host reads it, reserved bits 0 (10_state.md R24). -/
def Status.word (t : Status) : Word :=
  0#14 ++ BitVec.ofBool t.busyViol ++ BitVec.ofBool t.errSticky ++ 0#6 ++ BitVec.ofBool t.ksbValid ++
    BitVec.ofBool t.ksaValid ++ t.err.code ++ 0#2 ++ BitVec.ofBool t.done ++ BitVec.ofBool t.busy

/-- CFG as the host reads it: NB in [3:0], NK in [7:4], NR in [15:8] (10_state.md R25). -/
def Cfg.word (c : Cfg) : Word := 0#16 ++ c.nr ++ BitVec.ofNat 4 c.nkWords ++ BitVec.ofNat 4 c.nbWords

/-- CTRL as the host reads it: IE in bit 0, the rest 0 (10_state.md R27). -/
def ctrlWord (ie : Bool) : Word := 0#31 ++ BitVec.ofBool ie

/-- A host write of v to STATUS clears DONE, ERR_STICKY and BUSY_VIOL where v has bit 1, 16 and 17 (10_state.md
R24). -/
def Status.writeOneToClear (t : Status) (v : Word) : Status :=
  { t with
    done := t.done && !v.getLsbD 1
    errSticky := t.errSticky && !v.getLsbD 16
    busyViol := t.busyViol && !v.getLsbD 17 }

/-- Acceptance: BUSY <- 1, DONE <- 0, nothing else (60_exceptions.md R300). -/
def Status.accepted (t : Status) : Status := { t with busy := true, done := false }

/-- Completion with a code: ERR, the sticky bit, BUSY <- 0, DONE <- 1 (60_exceptions.md R301). -/
def Status.completed (t : Status) (e : ErrCode) : Status :=
  { t with err := e, errSticky := t.errSticky || e != .ok, busy := false, done := true }

/-- The validity bit of a schedule (10_state.md R43). -/
def Status.valid (t : Status) : Sched → Bool
  | .a => t.ksaValid
  | .b => t.ksbValid

/-- A successful command that writes a schedule sets its bit (10_state.md R43). -/
def Status.setValid (t : Status) : Sched → Status
  | .a => { t with ksaValid := true }
  | .b => { t with ksbValid := true }

/-- CONFIGURE clears both bits (45_control.md R272). -/
def Status.clearValid (t : Status) : Status := { t with ksaValid := false, ksbValid := false }

/-- The interrupt output: IRQ = CTRL.IE AND STATUS.DONE (10_state.md R49). -/
def State.irq (s : State) : Bool := s.ie && s.status.done

end Sys2Proof.Machine
end

