-- ==== Sys2Proof/Machine/Ops.lean ====
section
/-! DEFINITION. The named operations over memory and registers, byte order, and the two ends of a command:
complete, and raise, which is how CORE takes an error (60_exceptions.md R301, R304). -/

namespace Sys2Proof.Machine

/-- What a step or a meaning answers. -/
abbrev Result := Host.Outcome State Fault Refusal

/-! Byte order (20_memory.md R71; 00_scope.md R11). -/

/-- The 4 bytes of a word, bits [7:0] first (20_memory.md R71; the column packing of 41_tables_operators.md R169). -/
def quadOfWord (w : Word) : Quad :=
  ⟨w.extractLsb' 0 8, w.extractLsb' 8 8, w.extractLsb' 16 8, w.extractLsb' 24 8⟩

/-- The word {b3, b2, b1, b0} (20_memory.md R71). -/
def wordOfQuad (q : Quad) : Word := q.b3 ++ q.b2 ++ q.b1 ++ q.b0

/-- A 4-byte word's bytes in order. -/
def quadList (q : Quad) : List Byte := [q.b0, q.b1, q.b2, q.b3]

/-- The bytes of a sequence of 4-byte words, in order: "Flatten" of a state matrix and the bytes of a schedule
(43_block_transform.md R200, 42_key_schedule.md R189). -/
def flatten : List Quad → List Byte
  | [] => []
  | q :: qs => q.b0 :: q.b1 :: q.b2 :: q.b3 :: flatten qs

/-- A byte sequence cut into 4-byte words: "Load" of a block, and the seed words of a key (43_block_transform.md
R200, 42_key_schedule.md R182). -/
def load : List Byte → List Quad
  | b0 :: b1 :: b2 :: b3 :: bs => ⟨b0, b1, b2, b3⟩ :: load bs
  | _ => []

/-- v[31:0] of an unbounded value. -/
def lowWord (n : Nat) : Word := BitVec.ofNat 32 n

/-- v[63:32] of an unbounded value. -/
def highWord (n : Nat) : Word := BitVec.ofNat 32 (n >>> 32)

/-! Memory (20_memory.md R89, R90; 00_scope.md R13). -/

/-- The byte at an offset, none where nothing has been written. -/
def Memory.byteAt : Memory → Nat → Option Byte
  | [], _ => none
  | c :: m, a => if c.1 = a then some c.2 else Memory.byteAt m a

/-- Bytes laid out from an offset up. -/
def cellsFrom : Nat → List Byte → Memory
  | _, [] => []
  | a, b :: bs => (a, b) :: cellsFrom (a + 1) bs

/-- MemWrite: byte bs[i] to offset lo + i (00_scope.md R13). -/
def Memory.setBytes (m : Memory) (lo : Nat) (bs : List Byte) : Memory :=
  m.filter (fun c => c.1 < lo) ++ cellsFrom lo bs ++ m.filter (fun c => lo + bs.length ≤ c.1)

/-- MemRead: the n bytes from an offset (00_scope.md R13); a byte that holds no value is a fault (20_memory.md R90). -/
def Memory.readBytes (m : Memory) (a : Nat) : Nat → Except Fault (List Byte)
  | 0 => .ok []
  | n + 1 =>
    match m.byteAt a with
    | none => .error (.unwrittenByte a)
    | some b =>
      match Memory.readBytes m (a + 1) n with
      | .error f => .error f
      | .ok bs => .ok (b :: bs)

/-- Every byte at offsets lo to hi - 1 that holds a value becomes unspecified; one that holds none stays so
(10_state.md R44 with 90_conflicts.md C5, R46). Log 7, log 8. -/
def Memory.forget (m : Memory) (lo hi draw : Nat) : Memory :=
  m.map fun c => (c.1, if lo ≤ c.1 ∧ c.1 < hi then Config.unspecifiedByte draw c.1 else c.2)

/-- n 4-byte words from an offset. -/
def Memory.readQuads (m : Memory) (a n : Nat) : Except Fault (List Quad) :=
  match m.readBytes a (4 * n) with
  | .error f => .error f
  | .ok bs => .ok (load bs)

/-! Registers. -/

/-- RES0 <- v (10_state.md R31). -/
def State.setRes0 (s : State) (v : Word) : State := { s with res0 := v }

/-- RES1 <- v (10_state.md R32). -/
def State.setRes1 (s : State) (v : Word) : State := { s with res1 := v }

/-- RES2 <- v (10_state.md R33). -/
def State.setRes2 (s : State) (v : Word) : State := { s with res2 := v }

/-- OUT_LEN <- n (10_state.md R36). -/
def State.setOutLen (s : State) (n : Nat) : State := { s with outLen := BitVec.ofNat 32 n }

/-- The window memory becomes m. -/
def State.setMem (s : State) (m : Memory) : State := { s with mem := m }

/-- STATUS becomes t. -/
def State.setStatus (s : State) (t : Status) : State := { s with status := t }

/-- CFG <- c (10_state.md R25). -/
def State.setCfg (s : State) (c : Cfg) : State := { s with cfg := c }

/-- The block state written back to STATE columns 0 to NB-1 (43_block_transform.md R213). -/
def State.putColumns (s : State) (cols : List Quad) : State :=
  s.setMem (s.mem.setBytes Window.state.base (flatten cols))

/-- A command's result written from a window's first byte up; the bytes of the window above it that held a value
become unspecified, and those nothing has written still hold none (10_state.md R44, R46; 20_memory.md R90). Log 7,
log 8. -/
def Memory.putWindow (m : Memory) (w : Window) (bs : List Byte) (draw : Nat) : Memory :=
  (m.forget (w.base + bs.length) (w.base + w.size) draw).setBytes w.base bs

/-- A schedule written from word 0 up, and its validity bit set (10_state.md R41 to R44). Log 8. -/
def State.putSchedule (s : State) (sel : Sched) (ws : List Quad) : State :=
  (s.setMem (s.mem.putWindow (schedWindow sel) (flatten ws) s.draws)).setStatus (s.status.setValid sel)

/-- A frame command's result in MSG_OUT, its length in OUT_LEN (10_state.md R36, R46; 44_ecb_frame.md R253).
Log 7. -/
def State.putMessage (s : State) (out : List Byte) : State :=
  (s.setMem (s.mem.putWindow .msgOut out s.draws)).setOutLen out.length

/-! The ends of a command. -/

/-- The sequencer's closing writes: STATUS, ELAPSED (a draw, log 4), and no pending command (60_exceptions.md
R301). -/
def State.finish (s : State) (e : ErrCode) : State :=
  { s with
    status := s.status.completed e
    elapsed := Config.elapsedFn s.draws
    draws := s.draws + 1
    pending := none
    delay := 0 }

/-- "complete" ends the command with code OK (00_scope.md R13, 60_exceptions.md R301). -/
def complete (s : State) : Result := .next (s.finish .ok)

/-- "raise E" ends the command with an error: given the state the command started from, so that nothing but STATUS
and ELAPSED is written (60_exceptions.md R301, R304). -/
def raise (e : ErrCode) (s : State) : Result := .next (s.finish e)

/-- Go on with what was read, or stop at a byte that holds no value (20_memory.md R90). -/
def afterRead {α : Type} (r : Except Fault α) (k : α → Result) : Result :=
  match r with
  | .error f => .fault f
  | .ok a => k a

end Sys2Proof.Machine
end

