-- ==== Sys2Proof/Machine/Sequencer.lean ====
section
/-! DEFINITION. The life of a command outside its meaning: acceptance, whose turn it is, and an illegal word
(60_exceptions.md R300 to R302; 70_reset_and_hazards.md R351). -/

namespace Sys2Proof.Machine

/-- A command word becomes pending: BUSY <- 1, DONE <- 0 (60_exceptions.md R300). Every word is accepted. -/
def State.loadPending (s : State) (w : Word) (d : Nat) : State :=
  { s with pending := some w, status := s.status.accepted, delay := d }

/-- Acceptance of a command word the host writes; the latest moment of its completion is a draw
(60_exceptions.md R300, 70_reset_and_hazards.md R350). Log 10. -/
def State.accept (s : State) (w : Word) : State :=
  { s.loadPending w (Config.completionDelay s.draws) with draws := s.draws + 1 }

/-- The command word the sequencer completes now, if it is its turn: when the delay has run out or the host has no
move left. Otherwise the host moves (00_scope.md R17, 70_reset_and_hazards.md R351). Log 10. -/
def State.sequencerWord (s : State) : Option Word :=
  match s.pending with
  | none => none
  | some w => if s.delay = 0 ∨ s.host = [] then some w else none

/-- An illegal word completes with ERR_ILLEGAL_CMD (30_encoding.md R106, 60_exceptions.md R302). -/
def illegalCommand (s : State) : Result := raise .illegalCmd s

end Sys2Proof.Machine
end

