-- ==== Sys2Proof/Machine/Bus.lean ====
section
/-! DEFINITION. The host's moves: bus reads and writes of the register map, the WAIT poll, the IRQ line, reset
(20_memory.md R70 to R90; 30_encoding.md R109; 60_exceptions.md R310; 70_reset_and_hazards.md R340 to R342). -/

namespace Sys2Proof.Machine

/-- What a bus offset selects. -/
inductive Target where
  | reg (r : Reg)
  | window (w : Window)
deriving DecidableEq, Repr

/-- The registers in the order of their offsets (10_state.md R20). -/
def regsInOrder : List Reg :=
  [.id, .cmd, .status, .ctrl, .cfgReq, .cfg, .opa, .opb] ++
  [.opm, .res0, .res1, .res2, .keyLen, .inLen, .outLen, .elapsed]

/-- The windows in the order of their offsets (10_state.md R20). -/
def windowsInOrder : List Window := [.state, .keyBuf, .schedA, .schedB, .msgIn, .msgOut]

/-- The address decoder: bits [1:0] must be 0, and the offset must be a register's or lie in a window; otherwise a
bus error (20_memory.md R74 to R76). Log 16. -/
def busTarget (off : Nat) : Except Fault Target :=
  if off % 4 ≠ 0 then .error (.busMisaligned off)
  else
    match regsInOrder.find? (fun r => r.offset == off) with
    | some r => .ok (.reg r)
    | none =>
      match windowsInOrder.find? (fun w => w.contains off) with
      | some w => .ok (.window w)
      | none => .error (.busReserved off)

/-- What a register reads as; ID is constant, CMD reads 0 (10_state.md R22 to R37). -/
def State.regWord (s : State) : Reg → Word
  | .id => 0x524A0007
  | .cmd => 0
  | .status => s.status.word
  | .ctrl => ctrlWord s.ie
  | .cfgReq => s.cfgReq
  | .cfg => s.cfg.word
  | .opa => s.opa
  | .opb => s.opb
  | .opm => s.opm
  | .res0 => s.res0
  | .res1 => s.res1
  | .res2 => s.res2
  | .keyLen => s.keyLen
  | .inLen => s.inLen
  | .outLen => s.outLen
  | .elapsed => s.elapsed

/-- The word of a window at an offset, little-endian (20_memory.md R71); a byte that holds no value is a fault
(R90). -/
def Memory.busWord (m : Memory) (off : Nat) : Except Fault Word :=
  match m.readBytes off 4 with
  | .ok [b0, b1, b2, b3] => .ok (wordOfQuad ⟨b0, b1, b2, b3⟩)
  | .ok _ => .error (.unwrittenByte off)
  | .error f => .error f

/-- What a location reads as while BUSY = 0. -/
def State.targetWord (s : State) (off : Nat) : Target → Except Fault Word
  | .reg r => .ok (s.regWord r)
  | .window _ => s.mem.busWord off

/-- The locations a host read returns current while BUSY = 1 (20_memory.md R81). -/
def readableWhileBusy : Target → Bool
  | .reg .id => true
  | .reg .status => true
  | .reg .ctrl => true
  | _ => false

/-- The locations a host write reaches while BUSY = 1 (20_memory.md R84). -/
def writableWhileBusy : Target → Bool
  | .reg .status => true
  | .reg .ctrl => true
  | _ => false

/-- A host read: no side effect but the data returned; while BUSY = 1 a draw for all but ID, STATUS and CTRL
(20_memory.md R78, R81). Log 5. -/
def hostRead (off : Nat) (s : State) : Result :=
  match busTarget off with
  | .error f => .fault f
  | .ok t =>
    if s.status.busy && !readableWhileBusy t then
      .next { s with rdata := some (Config.busyRead s.draws), draws := s.draws + 1 }
    else afterRead (s.targetWord off t) fun v => .next { s with rdata := some v }

/-- A host write to a register: CMD issues a command, STATUS clears bits, read-only registers ignore it
(10_state.md R22 to R37, 20_memory.md R77, R78). -/
def State.writeReg (s : State) (v : Word) : Reg → State
  | .id => s
  | .cmd => s.accept v
  | .status => s.setStatus (s.status.writeOneToClear v)
  | .ctrl => { s with ie := v.getLsbD 0 }
  | .cfgReq => { s with cfgReq := v }
  | .cfg => s
  | .opa => { s with opa := v }
  | .opb => { s with opb := v }
  | .opm => { s with opm := v }
  | .res0 => s
  | .res1 => s
  | .res2 => s
  | .keyLen => { s with keyLen := v }
  | .inLen => { s with inLen := v }
  | .outLen => s
  | .elapsed => s

/-- A host write to a window writes the 4 bytes of the addressed word, or is ignored (20_memory.md R71, R73, R77). -/
def State.writeWindow (s : State) (off : Nat) (v : Word) (w : Window) : State :=
  if w.hostWritable then s.setMem (s.mem.setBytes off (quadList (quadOfWord v))) else s

/-- A host write to a location while it may be written. -/
def State.writeTarget (s : State) (off : Nat) (v : Word) : Target → State
  | .reg r => s.writeReg v r
  | .window w => s.writeWindow off v w

/-- A host write dropped while BUSY = 1: nothing changes but BUSY_VIOL <- 1 (20_memory.md R84). -/
def State.dropWrite (s : State) : State := s.setStatus { s.status with busyViol := true }

/-- A host write (20_memory.md R75 to R78, R84). -/
def hostWrite (off : Nat) (v : Word) (s : State) : Result :=
  match busTarget off with
  | .error f => .fault f
  | .ok t => .next (if s.status.busy && !writableWhileBusy t then s.dropWrite else s.writeTarget off v t)

/-- Reset: every register and memory as after power-up, any pending command aborted; the host's remaining moves,
its last read data and the draw counter are not CORE's and stay (70_reset_and_hazards.md R340 to R342). Log 12. -/
def hostReset (s : State) : State :=
  { State.reset with host := s.host, rdata := s.rdata, draws := s.draws }

/-- A host move falls before a pending command's completion and brings it nearer (70_reset_and_hazards.md R351).
Log 10. -/
def State.countMove (s : State) : State := { s with delay := s.delay - 1 }

/-- One poll of STATUS, done again while BUSY = 1 (30_encoding.md R109). Log 19. -/
def hostPoll (rest : List HostMove) (s : State) : State :=
  { s with rdata := some s.status.word, host := if s.status.busy then .poll :: rest else rest }

/-- One look at the IRQ line, done again while it is 0 (60_exceptions.md R310). Log 19. -/
def hostAwaitIrq (rest : List HostMove) (s : State) : State :=
  { s with host := if s.irq then rest else .awaitIrq :: rest }

/-- The host's next move. With none left the machine is idle and holds its state (00_scope.md R19,
60_exceptions.md R321). Log 22. -/
def hostStep (s : State) : Result :=
  match s.host with
  | [] => .next s
  | .write off v :: rest => hostWrite off.toNat v { s.countMove with host := rest }
  | .read off :: rest => hostRead off.toNat { s.countMove with host := rest }
  | .poll :: rest => .next (hostPoll rest s.countMove)
  | .awaitIrq :: rest => .next (hostAwaitIrq rest s.countMove)
  | .reset :: rest => .next (hostReset { s with host := rest })

end Sys2Proof.Machine
end

