-- ==== Sys2Proof/Machine/GfMath.lean ====
section
/-! DEFINITION. The GF Engine's functions on unbounded GF(2) polynomials, bit i the coefficient of x^i
(40_gf_engine.md R120 to R130). -/

namespace Sys2Proof.Machine

/-- bitlen (00_scope.md R9). -/
def bitlen (n : Nat) : Nat := if n = 0 then 0 else Nat.log2 n + 1

/-- Multy: for each set bit pair (i in a, j in b), XOR a bit into position i+j (40_gf_engine.md R121). -/
def multy (a b : Nat) : Nat :=
  (List.range (bitlen a)).foldl
    (fun acc i =>
      if a.testBit i then
        (List.range (bitlen b)).foldl (fun acc j => if b.testBit j then acc ^^^ (1 <<< (i + j)) else acc) acc
      else acc)
    0

/-- The loop of Mod, each pass of which clears the top bit of n; the count bounds the passes (40_gf_engine.md R123).
Log 20. -/
def gfModLoop (m : Nat) : Nat → Nat → Nat
  | 0, n => n
  | k + 1, n => if n ≠ 0 ∧ bitlen m ≤ bitlen n then gfModLoop m k (n ^^^ (m <<< (bitlen n - bitlen m))) else n

/-- Mod(n, m), for m other than 0 (40_gf_engine.md R123). -/
def gfMod (n m : Nat) : Nat := gfModLoop m (bitlen n) n

/-- The loop of Dividing: the same passes, gathering the monomials 1 << s (40_gf_engine.md R125; 90_conflicts.md
C2). Log 20. -/
def gfDivLoop (d : Nat) : Nat → Nat → Nat → Nat
  | 0, _, q => q
  | k + 1, n, q =>
    if n ≠ 0 ∧ bitlen d ≤ bitlen n then
      gfDivLoop d k (n ^^^ (d <<< (bitlen n - bitlen d))) (q ^^^ (1 <<< (bitlen n - bitlen d)))
    else q

/-- Dividing(n, d), for d other than 0 (40_gf_engine.md R125). -/
def dividing (n d : Nat) : Nat := gfDivLoop d (bitlen n) n 0

/-- What AdvancedGCD returns. -/
structure Bezout where
  x : Nat
  y : Nat
  g : Nat
deriving DecidableEq, Repr

/-- The recursion of AdvancedGCD; the first argument's degree falls at each call, so bitlen a calls suffice
(40_gf_engine.md R127, R128). Log 20. -/
def gcdLoop : Nat → Nat → Nat → Bezout
  | 0, _, b => ⟨0, 1, b⟩
  | k + 1, a, b =>
    if a = 0 then ⟨0, 1, b⟩
    else
      let r := gcdLoop k (gfMod b a) a
      ⟨r.y ^^^ multy (dividing b a) r.x, r.x, r.g⟩

/-- AdvancedGCD(a, b) (40_gf_engine.md R127). -/
def advancedGcd (a b : Nat) : Bezout := gcdLoop (bitlen a) a b

/-- MultiplicativeReverse(n, m), with the y and gcd that GF_INV also writes, for m other than 0 (40_gf_engine.md
R129, R136). -/
def multiplicativeReverse (n m : Nat) : Bezout := advancedGcd (gfMod n m) m

end Sys2Proof.Machine
end

