-- ==== Sys2Proof/Machine/Tables.lean ====
section
/-! DEFINITION. The Cipher Tables and the column operator (41_tables_operators.md R150 to R166). -/

namespace Sys2Proof.Machine

/-- SBOX, row b[7:4], column b[3:0] (41_tables_operators.md R151). -/
def sboxTable : List (List Byte) :=
   [[0x63, 0x7c, 0x77, 0x7b, 0xf2, 0x6b, 0x6f, 0xc5, 0x30, 0x01, 0x67, 0x2b, 0xfe, 0xd7, 0xab, 0x76],
    [0xca, 0x82, 0xc9, 0x7d, 0xfa, 0x59, 0x47, 0xf0, 0xad, 0xd4, 0xa2, 0xaf, 0x9c, 0xa4, 0x72, 0xc0],
    [0xb7, 0xfd, 0x93, 0x26, 0x36, 0x3f, 0xf7, 0xcc, 0x34, 0xa5, 0xe5, 0xf1, 0x71, 0xd8, 0x31, 0x15],
    [0x04, 0xc7, 0x23, 0xc3, 0x18, 0x96, 0x05, 0x9a, 0x07, 0x12, 0x80, 0xe2, 0xeb, 0x27, 0xb2, 0x75]] ++
   [[0x09, 0x83, 0x2c, 0x1a, 0x1b, 0x6e, 0x5a, 0xa0, 0x52, 0x3b, 0xd6, 0xb3, 0x29, 0xe3, 0x2f, 0x84],
    [0x53, 0xd1, 0x00, 0xed, 0x20, 0xfc, 0xb1, 0x5b, 0x6a, 0xcb, 0xbe, 0x39, 0x4a, 0x4c, 0x58, 0xcf],
    [0xd0, 0xef, 0xaa, 0xfb, 0x43, 0x4d, 0x33, 0x85, 0x45, 0xf9, 0x02, 0x7f, 0x50, 0x3c, 0x9f, 0xa8],
    [0x51, 0xa3, 0x40, 0x8f, 0x92, 0x9d, 0x38, 0xf5, 0xbc, 0xb6, 0xda, 0x21, 0x10, 0xff, 0xf3, 0xd2]] ++
   [[0xcd, 0x0c, 0x13, 0xec, 0x5f, 0x97, 0x44, 0x17, 0xc4, 0xa7, 0x7e, 0x3d, 0x64, 0x5d, 0x19, 0x73],
    [0x60, 0x81, 0x4f, 0xdc, 0x22, 0x2a, 0x90, 0x88, 0x46, 0xee, 0xb8, 0x14, 0xde, 0x5e, 0x0b, 0xdb],
    [0xe0, 0x32, 0x3a, 0x0a, 0x49, 0x06, 0x24, 0x5c, 0xc2, 0xd3, 0xac, 0x62, 0x91, 0x95, 0xe4, 0x79],
    [0xe7, 0xc8, 0x37, 0x6d, 0x8d, 0xd5, 0x4e, 0xa9, 0x6c, 0x56, 0xf4, 0xea, 0x65, 0x7a, 0xae, 0x08]] ++
   [[0xba, 0x78, 0x25, 0x2e, 0x1c, 0xa6, 0xb4, 0xc6, 0xe8, 0xdd, 0x74, 0x1f, 0x4b, 0xbd, 0x8b, 0x8a],
    [0x70, 0x3e, 0xb5, 0x66, 0x48, 0x03, 0xf6, 0x0e, 0x61, 0x35, 0x57, 0xb9, 0x86, 0xc1, 0x1d, 0x9e],
    [0xe1, 0xf8, 0x98, 0x11, 0x69, 0xd9, 0x8e, 0x94, 0x9b, 0x1e, 0x87, 0xe9, 0xce, 0x55, 0x28, 0xdf],
    [0x8c, 0xa1, 0x89, 0x0d, 0xbf, 0xe6, 0x42, 0x68, 0x41, 0x99, 0x2d, 0x0f, 0xb0, 0x54, 0xbb, 0x16]]

/-- INV_SBOX, laid out alike (41_tables_operators.md R152). -/
def invSboxTable : List (List Byte) :=
   [[0x52, 0x09, 0x6a, 0xd5, 0x30, 0x36, 0xa5, 0x38, 0xbf, 0x40, 0xa3, 0x9e, 0x81, 0xf3, 0xd7, 0xfb],
    [0x7c, 0xe3, 0x39, 0x82, 0x9b, 0x2f, 0xff, 0x87, 0x34, 0x8e, 0x43, 0x44, 0xc4, 0xde, 0xe9, 0xcb],
    [0x54, 0x7b, 0x94, 0x32, 0xa6, 0xc2, 0x23, 0x3d, 0xee, 0x4c, 0x95, 0x0b, 0x42, 0xfa, 0xc3, 0x4e],
    [0x08, 0x2e, 0xa1, 0x66, 0x28, 0xd9, 0x24, 0xb2, 0x76, 0x5b, 0xa2, 0x49, 0x6d, 0x8b, 0xd1, 0x25]] ++
   [[0x72, 0xf8, 0xf6, 0x64, 0x86, 0x68, 0x98, 0x16, 0xd4, 0xa4, 0x5c, 0xcc, 0x5d, 0x65, 0xb6, 0x92],
    [0x6c, 0x70, 0x48, 0x50, 0xfd, 0xed, 0xb9, 0xda, 0x5e, 0x15, 0x46, 0x57, 0xa7, 0x8d, 0x9d, 0x84],
    [0x90, 0xd8, 0xab, 0x00, 0x8c, 0xbc, 0xd3, 0x0a, 0xf7, 0xe4, 0x58, 0x05, 0xb8, 0xb3, 0x45, 0x06],
    [0xd0, 0x2c, 0x1e, 0x8f, 0xca, 0x3f, 0x0f, 0x02, 0xc1, 0xaf, 0xbd, 0x03, 0x01, 0x13, 0x8a, 0x6b]] ++
   [[0x3a, 0x91, 0x11, 0x41, 0x4f, 0x67, 0xdc, 0xea, 0x97, 0xf2, 0xcf, 0xce, 0xf0, 0xb4, 0xe6, 0x73],
    [0x96, 0xac, 0x74, 0x22, 0xe7, 0xad, 0x35, 0x85, 0xe2, 0xf9, 0x37, 0xe8, 0x1c, 0x75, 0xdf, 0x6e],
    [0x47, 0xf1, 0x1a, 0x71, 0x1d, 0x29, 0xc5, 0x89, 0x6f, 0xb7, 0x62, 0x0e, 0xaa, 0x18, 0xbe, 0x1b],
    [0xfc, 0x56, 0x3e, 0x4b, 0xc6, 0xd2, 0x79, 0x20, 0x9a, 0xdb, 0xc0, 0xfe, 0x78, 0xcd, 0x5a, 0xf4]] ++
   [[0x1f, 0xdd, 0xa8, 0x33, 0x88, 0x07, 0xc7, 0x31, 0xb1, 0x12, 0x10, 0x59, 0x27, 0x80, 0xec, 0x5f],
    [0x60, 0x51, 0x7f, 0xa9, 0x19, 0xb5, 0x4a, 0x0d, 0x2d, 0xe5, 0x7a, 0x9f, 0x93, 0xc9, 0x9c, 0xef],
    [0xa0, 0xe0, 0x3b, 0x4d, 0xae, 0x2a, 0xf5, 0xb0, 0xc8, 0xeb, 0xbb, 0x3c, 0x83, 0x53, 0x99, 0x61],
    [0x17, 0x2b, 0x04, 0x7e, 0xba, 0x77, 0xd6, 0x26, 0xe1, 0x69, 0x14, 0x63, 0x55, 0x21, 0x0c, 0x7d]]

/-- The entry of a 16 by 16 table at row b[7:4], column b[3:0] (41_tables_operators.md R151). -/
def tableEntry (t : List (List Byte)) (b : Byte) : Byte :=
  (t.getD (b.toNat / 16) []).getD (b.toNat % 16) 0

/-- SBOX[b] (41_tables_operators.md R151). -/
def sbox (b : Byte) : Byte := tableEntry sboxTable b

/-- INV_SBOX[b] (41_tables_operators.md R152). -/
def invSbox (b : Byte) : Byte := tableEntry invSboxTable b

/-- A 4x4 coefficient matrix by rows (00_scope.md R14). -/
structure Matrix where
  r0 : Quad
  r1 : Quad
  r2 : Quad
  r3 : Quad
deriving DecidableEq, Repr

/-- MIX (41_tables_operators.md R154). -/
def mix : Matrix :=
  ⟨⟨0x02, 0x03, 0x01, 0x01⟩, ⟨0x01, 0x02, 0x03, 0x01⟩, ⟨0x01, 0x01, 0x02, 0x03⟩, ⟨0x03, 0x01, 0x01, 0x02⟩⟩

/-- INV_MIX (41_tables_operators.md R155). -/
def invMix : Matrix :=
  ⟨⟨0x0e, 0x0b, 0x0d, 0x09⟩, ⟨0x09, 0x0e, 0x0b, 0x0d⟩, ⟨0x0d, 0x09, 0x0e, 0x0b⟩, ⟨0x0b, 0x0d, 0x09, 0x0e⟩⟩

/-- ALT_MIX = MIX (41_tables_operators.md R156). -/
def altMix : Matrix := mix

/-- ALT_INV_MIX = INV_MIX (41_tables_operators.md R156). -/
def altInvMix : Matrix := invMix

/-- The modulus of the standard layer (41_tables_operators.md R157). -/
def stdModulus : Nat := 0x11B

/-- The modulus of the alternate layer (41_tables_operators.md R157, R159). -/
def altModulus : Nat := 0x133

/-- One output byte: the XOR of four products, each reduced (41_tables_operators.md R157). -/
def rowProduct (row col : Quad) (m : Nat) : Byte :=
  BitVec.ofNat 8
    (gfMod (multy row.b0.toNat col.b0.toNat) m ^^^ gfMod (multy row.b1.toNat col.b1.toNat) m ^^^
      gfMod (multy row.b2.toNat col.b2.toNat) m ^^^ gfMod (multy row.b3.toNat col.b3.toNat) m)

/-- MixColumn(col, M, m) (41_tables_operators.md R157). -/
def mixColumn (col : Quad) (c : Matrix) (m : Nat) : Quad :=
  ⟨rowProduct c.r0 col m, rowProduct c.r1 col m, rowProduct c.r2 col m, rowProduct c.r3 col m⟩

/-- RCON, 15 entries (41_tables_operators.md R160, R161). -/
def rconTable : List Byte :=
  rcon0 :: ([0x01, 0x02, 0x04, 0x08, 0x10, 0x20, 0x40, 0x80] ++ [0x1b, 0x36, 0x6c, 0xd8, 0xab, 0x4d])

/-- RCON[i]. No command reads beyond index 14 while CFG.NR is an entry of NR_TABLE (41_tables_operators.md R162,
R173; log 21). -/
def rcon (i : Nat) : Byte := rconTable.getD i 0

/-- The class of a size in bits: 128, 192, 256, and any other value the 128-bit default (41_tables_operators.md
R163, 45_control.md R271). -/
def sizeClass (bits : Nat) : SizeClass :=
  if bits = 192 then .bits192 else if bits = 256 then .bits256 else .bits128

/-- The number of a size class (41_tables_operators.md R163). -/
def SizeClass.index : SizeClass → Nat
  | .bits128 => 0
  | .bits192 => 1
  | .bits256 => 2

/-- NR_TABLE[key class][block class]: the entry [0][0] is 10, and any other is the parameter's, "in 1..14"
(41_tables_operators.md R164 to R166). Every table R166 allows is this table for some nrEntry, and no other is.
Log 3. -/
def nrTable : SizeClass → SizeClass → Nat
  | .bits128, .bits128 => 10
  | kc, bc => Config.nrEntry kc.index bc.index % 14 + 1

/-- The default of the parameter NR_TABLE (41_tables_operators.md R166). No definition of the machine reads it. -/
def nrDefault : SizeClass → SizeClass → Nat
  | .bits128, .bits128 => 10
  | .bits128, .bits192 => 12
  | .bits128, .bits256 => 14
  | .bits192, .bits128 => 12
  | .bits192, .bits192 => 12
  | .bits192, .bits256 => 14
  | .bits256, .bits128 => 14
  | .bits256, .bits192 => 14
  | .bits256, .bits256 => 14

end Sys2Proof.Machine
end

