-- ==== Sys2Proof/Machine/ScheduleMath.lean ====
section
/-! DEFINITION. Key expansion as pure functions (42_key_schedule.md R180 to R189). -/

namespace Sys2Proof.Machine

/-- Stretch(K, n)[j] = K[j mod len(K)] (42_key_schedule.md R181). -/
def stretch (k : List Byte) (n : Nat) : List Byte := (List.range n).map fun j => k.getD (j % k.length) 0

/-- RotWord (42_key_schedule.md R183). -/
def rotWord (t : Quad) : Quad := ⟨t.b1, t.b2, t.b3, t.b0⟩

/-- SubWord (42_key_schedule.md R183). -/
def subWord (t : Quad) : Quad := t.map sbox

/-- The round constant enters byte 0 only (42_key_schedule.md R185). -/
def addRcon (rc : Byte) (t : Quad) : Quad := ⟨t.b0 ^^^ rc, t.b1, t.b2, t.b3⟩

/-- w[i] from the words before it, newest first, so that w[i-1] is at 0 and w[i-Nk] at Nk-1; the RCon index is
i div Nb (42_key_schedule.md R183, R193). -/
def nextWord (nb nk : Nat) (rot : Bool) (i : Nat) (ws : List Quad) : Quad :=
  let t := ws.getD 0 Quad.zero
  let t := if i % nk = 0 then addRcon (rcon (i / nb)) (subWord (if rot then rotWord t else t)) else t
  t.xor (ws.getD (nk - 1) Quad.zero)

/-- The recurrence for n words from index i up, newest first (42_key_schedule.md R183). -/
def expandFrom (nb nk : Nat) (rot : Bool) : Nat → Nat → List Quad → List Quad
  | 0, _, ws => ws
  | n + 1, i, ws => expandFrom nb nk rot n (i + 1) (nextWord nb nk rot i ws :: ws)

/-- The seed words of a key (42_key_schedule.md R182). -/
def seedWords (nk : Nat) (k : List Byte) : List Quad := load (stretch k (4 * nk))

/-- Expand(Nb, Nk, Nr, K, rot) (42_key_schedule.md R183). -/
def expand (c : Cfg) (k : List Byte) (rot : Bool) : List Quad :=
  let ws := expandFrom c.nbWords c.nkWords rot (c.schedLen - c.nkWords) c.nkWords (seedWords c.nkWords k).reverse
  ws.reverse.take c.schedLen

/-- The first half of the key, h = n div 2 bytes (42_key_schedule.md R187). -/
def firstHalf (k : List Byte) : List Byte := k.take (k.length / 2)

/-- The second half of the key, with the extra byte of an odd length (42_key_schedule.md R187). -/
def secondHalf (k : List Byte) : List Byte := k.drop (k.length / 2)

/-- Schedule A of a split key, with rotation (42_key_schedule.md R188). -/
def scheduleA (c : Cfg) (k : List Byte) : List Quad := expand c (firstHalf k) true

/-- Schedule B of a split key, without rotation (42_key_schedule.md R184, R188). -/
def scheduleB (c : Cfg) (k : List Byte) : List Quad := expand c (secondHalf k) false

/-- RK(w, r): words r*Nb to r*Nb+Nb-1 (42_key_schedule.md R189). -/
def roundKey (w : List Quad) (nb r : Nat) : List Quad := (w.drop (r * nb)).take nb

end Sys2Proof.Machine
end

