-- ==== Sys2Proof/Machine/BlockMath.lean ====
section
/-! DEFINITION. The block transform's steps and pipelines as pure functions on a state matrix, a list of Nb columns
(43_block_transform.md R200 to R212). -/

namespace Sys2Proof.Machine

/-- SubBytes (43_block_transform.md R201). -/
def subBytes (m : List Quad) : List Quad := m.map (Quad.map sbox)

/-- InvSubBytes (43_block_transform.md R201). -/
def invSubBytes (m : List Quad) : List Quad := m.map (Quad.map invSbox)

/-- Column c of a state matrix. -/
def column (m : List Quad) (c : Nat) : Quad := m.getD c Quad.zero

/-- ShiftRows: row r of column c comes from column (c + r) mod Nb, for every Nb (43_block_transform.md R202,
R212). -/
def shiftRows (m : List Quad) : List Quad :=
  (List.range m.length).map fun c =>
    ⟨(column m c).b0, (column m ((c + 1) % m.length)).b1, (column m ((c + 2) % m.length)).b2,
      (column m ((c + 3) % m.length)).b3⟩

/-- InvShiftRows: row r of column c comes from column (c - r) mod Nb (43_block_transform.md R203). -/
def invShiftRows (m : List Quad) : List Quad :=
  (List.range m.length).map fun c =>
    ⟨(column m c).b0, (column m ((c + m.length - 1) % m.length)).b1, (column m ((c + m.length - 2) % m.length)).b2,
      (column m ((c + m.length - 3) % m.length)).b3⟩

/-- MixColumns, the standard layer (43_block_transform.md R204). -/
def mixColumns (m : List Quad) : List Quad := m.map fun col => mixColumn col mix stdModulus

/-- InvMixColumns (43_block_transform.md R204). -/
def invMixColumns (m : List Quad) : List Quad := m.map fun col => mixColumn col invMix stdModulus

/-- AltMixColumns, the alternate layer (43_block_transform.md R204). -/
def altMixColumns (m : List Quad) : List Quad := m.map fun col => mixColumn col altMix altModulus

/-- InvAltMixColumns (43_block_transform.md R204). -/
def invAltMixColumns (m : List Quad) : List Quad := m.map fun col => mixColumn col altInvMix altModulus

/-- AddRoundKey (43_block_transform.md R205). -/
def addRoundKey (m rk : List Quad) : List Quad := List.zipWith Quad.xor m rk

/-- Both key additions of round i of encryption, A then B (43_block_transform.md R206). -/
def addKeysAB (wA wB : List Quad) (nb i : Nat) (m : List Quad) : List Quad :=
  addRoundKey (addRoundKey m (roundKey wA nb i)) (roundKey wB nb i)

/-- Both key removals of round i of decryption, B then A (43_block_transform.md R208). -/
def addKeysBA (wA wB : List Quad) (nb i : Nat) (m : List Quad) : List Quad :=
  addRoundKey (addRoundKey m (roundKey wB nb i)) (roundKey wA nb i)

/-- Round i of step 3 of the encrypt pipeline (43_block_transform.md R206, R209). -/
def encryptRound (wA wB : List Quad) (nb i : Nat) (m : List Quad) : List Quad :=
  let m := addKeysAB wA wB nb i (mixColumns (shiftRows (subBytes m)))
  if i % 2 = 0 then altMixColumns m else m

/-- Round i of the decrypt pipeline's loop (43_block_transform.md R208, R209). -/
def decryptRound (wA wB : List Quad) (nb i : Nat) (m : List Quad) : List Quad :=
  let m := if i % 2 = 0 then invAltMixColumns m else m
  invSubBytes (invShiftRows (invMixColumns (addKeysBA wA wB nb i m)))

/-- The encrypt pipeline on the matrix, rounds 1 to Nr-1 in rising order (43_block_transform.md R206). -/
def encryptMatrix (wA wB : List Quad) (nb nr : Nat) (m : List Quad) : List Quad :=
  let m := addKeysAB wA wB nb 0 m
  let m := (List.range' 1 (nr - 1)).foldl (fun m i => encryptRound wA wB nb i m) m
  addKeysAB wA wB nb nr (shiftRows (subBytes m))

/-- The decrypt pipeline on the matrix, rounds Nr-1 down to 1 (43_block_transform.md R208). -/
def decryptMatrix (wA wB : List Quad) (nb nr : Nat) (m : List Quad) : List Quad :=
  let m := invSubBytes (invShiftRows (addKeysBA wA wB nb nr m))
  let m := (List.range' 1 (nr - 1)).foldr (fun i m => decryptRound wA wB nb i m) m
  addKeysBA wA wB nb 0 m

/-- EncryptBlock (43_block_transform.md R206). -/
def encryptBlock (block : List Byte) (wA wB : List Quad) (nb nr : Nat) : List Byte :=
  flatten (encryptMatrix wA wB nb nr (load block))

/-- DecryptBlock (43_block_transform.md R208). -/
def decryptBlock (block : List Byte) (wA wB : List Quad) (nb nr : Nat) : List Byte :=
  flatten (decryptMatrix wA wB nb nr (load block))

end Sys2Proof.Machine
end

