-- ==== Sys2Proof/Machine/Operands.lean ====
section
/-! DEFINITION. The operand forms of 30_encoding.md R104: what each group of commands reads. -/

namespace Sys2Proof.Machine

/-- OPA[7:0], the operand of SBOX and INV_SBOX (41_tables_operators.md R167). -/
def opaByte (s : State) : Byte := s.opa.extractLsb' 0 8

/-- OPA as a column, row r in bits [8r+7:8r] (41_tables_operators.md R169). -/
def opaColumn (s : State) : Quad := quadOfWord s.opa

/-- KEY_BUF[0..KEY_LEN) (42_key_schedule.md R187). -/
def readKey (s : State) : Except Fault (List Byte) := s.mem.readBytes Window.keyBuf.base s.keyLen.toNat

/-- MSG_IN[0..IN_LEN) (44_ecb_frame.md R245). -/
def readMessage (s : State) : Except Fault (List Byte) := s.mem.readBytes Window.msgIn.base s.inLen.toNat

/-- The block state: STATE columns 0 to NB-1 (43_block_transform.md R213). -/
def readColumns (s : State) : Except Fault (List Quad) := s.mem.readQuads Window.state.base s.cfg.nbWords

/-- A schedule's words 0 to (NR+1)*NB - 1 (43_block_transform.md R213). -/
def readSchedule (sel : Sched) (s : State) : Except Fault (List Quad) :=
  s.mem.readQuads (schedWindow sel).base s.cfg.schedLen

end Sys2Proof.Machine
end

