-- ==== Sys2Proof/Machine/BlockTransform.lean ====
section
/-! DEFINITION. The meanings of the Block Transform's commands (43_block_transform.md R213 to R225). -/

namespace Sys2Proof.Machine

/-- The template of a layer command: STATE columns 0 to NB-1 replaced by a function of them (43_block_transform.md
R213). -/
def layer (f : List Quad → List Quad) (s : State) : Result :=
  afterRead (readColumns s) fun m => complete (s.putColumns (f m))

/-- SUB_BYTES (43_block_transform.md R215). -/
def execSubBytes (s : State) : Result := layer subBytes s

/-- INV_SUB_BYTES (43_block_transform.md R216). -/
def execInvSubBytes (s : State) : Result := layer invSubBytes s

/-- SHIFT_ROWS (43_block_transform.md R217). -/
def execShiftRows (s : State) : Result := layer shiftRows s

/-- INV_SHIFT_ROWS (43_block_transform.md R218). -/
def execInvShiftRows (s : State) : Result := layer invShiftRows s

/-- MIX_COLUMNS (43_block_transform.md R219). -/
def execMixColumns (s : State) : Result := layer mixColumns s

/-- INV_MIX_COLUMNS (43_block_transform.md R220). -/
def execInvMixColumns (s : State) : Result := layer invMixColumns s

/-- ALT_MIX_COLUMNS (43_block_transform.md R221). -/
def execAltMixColumns (s : State) : Result := layer altMixColumns s

/-- INV_ALT_MIX_COLUMNS (43_block_transform.md R222). -/
def execInvAltMixColumns (s : State) : Result := layer invAltMixColumns s

/-- ADD_ROUND_KEY, the schedule check before the range check (43_block_transform.md R214, R223). -/
def execAddRoundKey (sel : Sched) (rnd : Nat) (s : State) : Result :=
  if s.status.valid sel = false then raise .noSchedule s
  else if s.cfg.rounds < rnd then raise .range s
  else afterRead (readSchedule sel s) fun w => layer (fun m => addRoundKey m (roundKey w s.cfg.nbWords rnd)) s

/-- The two whole-block commands: both schedules valid, then a block function of the flattened state
(43_block_transform.md R224, R225). -/
def wholeBlock (f : List Byte → List Quad → List Quad → Nat → Nat → List Byte) (s : State) : Result :=
  if s.status.ksaValid = false ∨ s.status.ksbValid = false then raise .noSchedule s
  else
    afterRead (readSchedule .a s) fun wA =>
    afterRead (readSchedule .b s) fun wB =>
    layer (fun m => load (f (flatten m) wA wB s.cfg.nbWords s.cfg.rounds)) s

/-- ENCRYPT_BLOCK (43_block_transform.md R224). -/
def execEncryptBlock (s : State) : Result := wholeBlock encryptBlock s

/-- DECRYPT_BLOCK (43_block_transform.md R225). -/
def execDecryptBlock (s : State) : Result := wholeBlock decryptBlock s

end Sys2Proof.Machine
end

