-- ==== Sys2Proof/Machine/Control.lean ====
section
/-! DEFINITION. The meanings of the control commands (45_control.md). -/

namespace Sys2Proof.Machine

/-- NOP (45_control.md R270). -/
def execNop (s : State) : Result := complete s

/-- The configuration a CFG_REQ word asks for: block class from [15:0], key class from [31:16] (45_control.md
R271, R272). -/
def requestedCfg (req : Word) : Cfg :=
  let bc := sizeClass (req.extractLsb' 0 16).toNat
  let kc := sizeClass (req.extractLsb' 16 16).toNat
  { nb := bc, nk := kc, nr := BitVec.ofNat 8 (nrTable kc bc) }

/-- CONFIGURE (45_control.md R272). -/
def execConfigure (s : State) : Result :=
  complete ((s.setCfg (requestedCfg s.cfgReq)).setStatus s.status.clearValid)

end Sys2Proof.Machine
end

