-- ==== Sys2Proof/Machine/FrameMath.lean ====
section
/-! DEFINITION. ECB padding and the two frame functions (44_ecb_frame.md R241 to R249). -/

namespace Sys2Proof.Machine

/-- missing = (T - L mod T) mod T (44_ecb_frame.md R241). -/
def missingBytes (len t : Nat) : Nat := (t - len % t) % t

/-- Pad(p, T) (44_ecb_frame.md R241). -/
def padMessage (p : List Byte) (t : Nat) : List Byte :=
  (p ++ List.replicate (missingBytes p.length t + t) 0).set (p.length + missingBytes p.length t)
    (BitVec.ofNat 8 (missingBytes p.length t))

/-- Block j of a byte sequence, bytes j*T to j*T+T-1 (44_ecb_frame.md R243). -/
def blockAt (q : List Byte) (t j : Nat) : List Byte := (q.drop (j * t)).take t

/-- A block function applied to every whole block in order (44_ecb_frame.md R243, R248, R254). -/
def mapBlocks (f : List Byte → List Byte) (t : Nat) (q : List Byte) : List Byte :=
  (List.range (q.length / t)).flatMap fun j => f (blockAt q t j)

/-- EcbEncrypt (44_ecb_frame.md R243). -/
def ecbEncrypt (c : Cfg) (k p : List Byte) : List Byte :=
  mapBlocks (fun b => encryptBlock b (scheduleA c k) (scheduleB c k) c.nbWords c.rounds) c.blockBytes
    (padMessage p c.blockBytes)

/-- What is left of the decrypted blocks once the padding is stripped: the marker is the first byte of the last
block (44_ecb_frame.md R244). -/
def stripPadding (d : List Byte) (t : Nat) : List Byte :=
  d.take ((d.length / t - 1) * t - (d.getD ((d.length / t - 1) * t) 0).toNat % t)

/-- EcbDecrypt: fewer than 2 blocks pass through (44_ecb_frame.md R244, R249). -/
def ecbDecrypt (c : Cfg) (k m : List Byte) : List Byte :=
  if m.length < 2 * c.blockBytes then m
  else
    stripPadding
      (mapBlocks (fun b => decryptBlock b (scheduleA c k) (scheduleB c k) c.nbWords c.rounds) c.blockBytes m)
      c.blockBytes

end Sys2Proof.Machine
end

