-- ==== Sys2Proof/Machine/KeySchedule.lean ====
section
/-! DEFINITION. The meanings of the Key Schedule's commands (42_key_schedule.md R186 to R192). -/

namespace Sys2Proof.Machine

/-- The key-length checks, in order: below the least length, then beyond KEY_BUF (42_key_schedule.md R186). -/
def withKeyLength (least : Nat) (s : State) (k : Result) : Result :=
  if s.keyLen.toNat < least then raise .keyLength s else if keyBufBytes < s.keyLen.toNat then raise .length s else k

/-- Both schedules of a split key written, both validity bits set (42_key_schedule.md R190). -/
def State.putSchedules (s : State) (k : List Byte) : State :=
  (s.putSchedule .a (scheduleA s.cfg k)).putSchedule .b (scheduleB s.cfg k)

/-- One schedule of the whole key (42_key_schedule.md R191, R192). -/
def expandWholeKey (sel : Sched) (rot : Bool) (s : State) : Result :=
  withKeyLength 1 s (afterRead (readKey s) fun k => complete (s.putSchedule sel (expand s.cfg k rot)))

/-- KEY_EXPAND (42_key_schedule.md R190). -/
def execKeyExpand (s : State) : Result :=
  withKeyLength 2 s (afterRead (readKey s) fun k => complete (s.putSchedules k))

/-- KEY_EXPAND_ROT (42_key_schedule.md R191). -/
def execKeyExpandRot (s : State) : Result := expandWholeKey .a true s

/-- KEY_EXPAND_NOROT (42_key_schedule.md R192). -/
def execKeyExpandNorot (s : State) : Result := expandWholeKey .b false s

end Sys2Proof.Machine
end

