-- ==== Sys2Proof/Machine/EcbFrame.lean ====
section
/-! DEFINITION. The meanings of the ECB Framing commands (44_ecb_frame.md R245 to R253). -/

namespace Sys2Proof.Machine

/-- The capacity check of MSG_IN (44_ecb_frame.md R245). -/
def withMessageLength (s : State) (k : Result) : Result :=
  if bufBytes < s.inLen.toNat then raise .length s else k

/-- The common part of ECB_ENCRYPT and ECB_DECRYPT after their checks: read key and message, write the schedules and
the message function's result; STATE is not touched (44_ecb_frame.md R246, R250, R253). -/
def frame (f : Cfg → List Byte → List Byte → List Byte) (s : State) : Result :=
  afterRead (readKey s) fun k =>
  afterRead (readMessage s) fun p =>
  complete ((s.putSchedules k).putMessage (f s.cfg k p))

/-- PAD (44_ecb_frame.md R245). -/
def execPad (s : State) : Result :=
  withMessageLength s (afterRead (readMessage s) fun p => complete (s.putMessage (padMessage p s.cfg.blockBytes)))

/-- ECB_ENCRYPT (44_ecb_frame.md R246). -/
def execEcbEncrypt (s : State) : Result := withKeyLength 2 s (withMessageLength s (frame ecbEncrypt s))

/-- ECB_DECRYPT: a ciphertext of at least two blocks must be a whole number of them (44_ecb_frame.md R250). -/
def execEcbDecrypt (s : State) : Result :=
  withKeyLength 2 s
    (withMessageLength s
      (if 2 * s.cfg.blockBytes ≤ s.inLen.toNat ∧ s.inLen.toNat % s.cfg.blockBytes ≠ 0 then raise .length s
       else frame ecbDecrypt s))

end Sys2Proof.Machine
end

