-- ==== Sys2Proof/Machine/GfEngine.lean ====
section
/-! DEFINITION. The meanings of the GF Engine's commands (40_gf_engine.md R131 to R137). -/

namespace Sys2Proof.Machine

/-- The guard of every command with a modulus or divisor (40_gf_engine.md R130). -/
def withModulus (s : State) (k : State) : Result := if s.opm = 0 then raise .zeroModulus s else complete k

/-- The three results of extended Euclid, x, y and gcd (40_gf_engine.md R135, R136). -/
def State.putBezout (s : State) (r : Bezout) : State :=
  ((s.setRes0 (lowWord r.x)).setRes1 (lowWord r.y)).setRes2 (lowWord r.g)

/-- GF_MUL (40_gf_engine.md R132). -/
def execGfMul (s : State) : Result :=
  let p := multy s.opa.toNat s.opb.toNat
  complete ((s.setRes0 (lowWord p)).setRes1 (highWord p))

/-- GF_MOD (40_gf_engine.md R133). -/
def execGfMod (s : State) : Result := withModulus s (s.setRes0 (lowWord (gfMod s.opa.toNat s.opm.toNat)))

/-- GF_DIV (40_gf_engine.md R134). -/
def execGfDiv (s : State) : Result := withModulus s (s.setRes0 (lowWord (dividing s.opa.toNat s.opm.toNat)))

/-- GF_GCD (40_gf_engine.md R135). -/
def execGfGcd (s : State) : Result := complete (s.putBezout (advancedGcd s.opa.toNat s.opb.toNat))

/-- GF_INV (40_gf_engine.md R136). -/
def execGfInv (s : State) : Result :=
  withModulus s (s.putBezout (multiplicativeReverse s.opa.toNat s.opm.toNat))

/-- GF_MULMOD: the full product is reduced, without truncation (40_gf_engine.md R137). -/
def execGfMulmod (s : State) : Result :=
  withModulus s (s.setRes0 (lowWord (gfMod (multy s.opa.toNat s.opb.toNat) s.opm.toNat)))

end Sys2Proof.Machine
end

