-- ==== Sys2Proof/Machine/TableCommands.lean ====
section
/-! DEFINITION. The meanings of the Cipher Tables' commands (41_tables_operators.md R167 to R173). -/

namespace Sys2Proof.Machine

/-- A byte result, zero-extended, in RES0. -/
def completeByte (s : State) (b : Byte) : Result := complete (s.setRes0 (b.setWidth 32))

/-- A column result in RES0, row r in bits [8r+7:8r]. -/
def completeColumn (s : State) (q : Quad) : Result := complete (s.setRes0 (wordOfQuad q))

/-- SBOX (41_tables_operators.md R167). -/
def execSbox (s : State) : Result := completeByte s (sbox (opaByte s))

/-- INV_SBOX (41_tables_operators.md R168). -/
def execInvSbox (s : State) : Result := completeByte s (invSbox (opaByte s))

/-- MIXCOL (41_tables_operators.md R169). -/
def execMixcol (s : State) : Result := completeColumn s (mixColumn (opaColumn s) mix stdModulus)

/-- INV_MIXCOL (41_tables_operators.md R170). -/
def execInvMixcol (s : State) : Result := completeColumn s (mixColumn (opaColumn s) invMix stdModulus)

/-- ALT_MIXCOL (41_tables_operators.md R171). -/
def execAltMixcol (s : State) : Result := completeColumn s (mixColumn (opaColumn s) altMix altModulus)

/-- INV_ALT_MIXCOL (41_tables_operators.md R172). -/
def execInvAltMixcol (s : State) : Result := completeColumn s (mixColumn (opaColumn s) altInvMix altModulus)

/-- RCON (41_tables_operators.md R173). -/
def execRcon (s : State) : Result :=
  if 14 < s.opa.toNat then raise .range s else completeByte s (rcon s.opa.toNat)

end Sys2Proof.Machine
end

