-- ==== Sys2Proof/Machine/Dispatch.lean ====
section
/-! DEFINITION. One arm per command: its meaning, which includes its completion (60_exceptions.md R301). -/

namespace Sys2Proof.Machine

def exec (i : Instr) (s : State) : Host.Outcome State Fault Refusal :=
  match i with
  | .nop => Sys2Proof.Machine.execNop s
  | .gfMul => Sys2Proof.Machine.execGfMul s
  | .gfMod => Sys2Proof.Machine.execGfMod s
  | .gfDiv => Sys2Proof.Machine.execGfDiv s
  | .gfGcd => Sys2Proof.Machine.execGfGcd s
  | .gfInv => Sys2Proof.Machine.execGfInv s
  | .gfMulmod => Sys2Proof.Machine.execGfMulmod s
  | .sbox => Sys2Proof.Machine.execSbox s
  | .invSbox => Sys2Proof.Machine.execInvSbox s
  | .mixcol => Sys2Proof.Machine.execMixcol s
  | .invMixcol => Sys2Proof.Machine.execInvMixcol s
  | .altMixcol => Sys2Proof.Machine.execAltMixcol s
  | .invAltMixcol => Sys2Proof.Machine.execInvAltMixcol s
  | .rcon => Sys2Proof.Machine.execRcon s
  | .keyExpand => Sys2Proof.Machine.execKeyExpand s
  | .keyExpandRot => Sys2Proof.Machine.execKeyExpandRot s
  | .keyExpandNorot => Sys2Proof.Machine.execKeyExpandNorot s
  | .subBytes => Sys2Proof.Machine.execSubBytes s
  | .invSubBytes => Sys2Proof.Machine.execInvSubBytes s
  | .shiftRows => Sys2Proof.Machine.execShiftRows s
  | .invShiftRows => Sys2Proof.Machine.execInvShiftRows s
  | .mixColumns => Sys2Proof.Machine.execMixColumns s
  | .invMixColumns => Sys2Proof.Machine.execInvMixColumns s
  | .altMixColumns => Sys2Proof.Machine.execAltMixColumns s
  | .invAltMixColumns => Sys2Proof.Machine.execInvAltMixColumns s
  | .addRoundKey sel rnd => Sys2Proof.Machine.execAddRoundKey sel rnd s
  | .encryptBlock => Sys2Proof.Machine.execEncryptBlock s
  | .decryptBlock => Sys2Proof.Machine.execDecryptBlock s
  | .ecbEncrypt => Sys2Proof.Machine.execEcbEncrypt s
  | .ecbDecrypt => Sys2Proof.Machine.execEcbDecrypt s
  | .pad => Sys2Proof.Machine.execPad s
  | .configure => Sys2Proof.Machine.execConfigure s

end Sys2Proof.Machine
end

