-- ==== Sys2Proof/Machine/Step.lean ====
section
/-! DEFINITION. One step of the machine: the sequencer completes the pending command, or the host makes a move
(00_scope.md R17). -/

namespace Sys2Proof.Machine

/-- The sequencer step: decode, then the command's meaning; an illegal word is an error (60_exceptions.md R301). -/
def runCommand (w : Word) (s : State) : Host.Outcome State Fault Refusal :=
  match decode w with
  | .ok i => exec i s
  | .error _ => illegalCommand s

/-- One step (00_scope.md R17). -/
def step (s : State) : Host.Outcome State Fault Refusal :=
  match s.sequencerWord with
  | some w => runCommand w s
  | none => hostStep s

/-- The host's way to run one command: its word is pending and is completed by the very next step, as after a host
write to CMD (60_exceptions.md R300). Log 11. -/
def State.withFetchWord (s : State) (nbits w : Nat) : State := s.loadPending (BitVec.ofNat 32 (w % 2 ^ nbits)) 0

end Sys2Proof.Machine
end

