-- ==== Sys2Proof/Machine/Script.lean ====
section
/-! DEFINITION. The host's script language: command mnemonics, locations, and the expansion of script lines into bus
accesses (30_encoding.md R108, R109). -/

namespace Sys2Proof.Machine

/-- A schedule's letter in text (30_encoding.md R108). -/
def schedLetter : Sched → String
  | .a => "A"
  | .b => "B"

/-- A command in text (30_encoding.md R105, R108). -/
def commandText : Instr → String
  | .nop => "NOP"
  | .gfMul => "GF_MUL"
  | .gfMod => "GF_MOD"
  | .gfDiv => "GF_DIV"
  | .gfGcd => "GF_GCD"
  | .gfInv => "GF_INV"
  | .gfMulmod => "GF_MULMOD"
  | .sbox => "SBOX"
  | .invSbox => "INV_SBOX"
  | .mixcol => "MIXCOL"
  | .invMixcol => "INV_MIXCOL"
  | .altMixcol => "ALT_MIXCOL"
  | .invAltMixcol => "INV_ALT_MIXCOL"
  | .rcon => "RCON"
  | .keyExpand => "KEY_EXPAND"
  | .keyExpandRot => "KEY_EXPAND_ROT"
  | .keyExpandNorot => "KEY_EXPAND_NOROT"
  | .subBytes => "SUB_BYTES"
  | .invSubBytes => "INV_SUB_BYTES"
  | .shiftRows => "SHIFT_ROWS"
  | .invShiftRows => "INV_SHIFT_ROWS"
  | .mixColumns => "MIX_COLUMNS"
  | .invMixColumns => "INV_MIX_COLUMNS"
  | .altMixColumns => "ALT_MIX_COLUMNS"
  | .invAltMixColumns => "INV_ALT_MIX_COLUMNS"
  | .addRoundKey sel rnd => "ADD_ROUND_KEY " ++ schedLetter sel ++ ", " ++ toString rnd
  | .encryptBlock => "ENCRYPT_BLOCK"
  | .decryptBlock => "DECRYPT_BLOCK"
  | .ecbEncrypt => "ECB_ENCRYPT"
  | .ecbDecrypt => "ECB_DECRYPT"
  | .pad => "PAD"
  | .configure => "CONFIGURE"

/-- A location of a script line: a register's name, or a window with an index (30_encoding.md R109). -/
inductive Loc where
  | reg (r : Reg)
  /-- STATE[c]. -/
  | stateCol (c : Nat)
  /-- KEY_BUF+k. -/
  | keyBuf (k : Nat)
  /-- MSG_IN+k. -/
  | msgIn (k : Nat)
  /-- MSG_OUT+k. -/
  | msgOut (k : Nat)
  /-- SCHED_A[j] or SCHED_B[j]. -/
  | sched (sel : Sched) (j : Nat)
deriving DecidableEq, Repr

/-- The bus offset a location stands for (30_encoding.md R109, 10_state.md R20). -/
def Loc.offset : Loc → Nat
  | .reg r => r.offset
  | .stateCol c => Window.state.base + 4 * c
  | .keyBuf k => Window.keyBuf.base + k
  | .msgIn k => Window.msgIn.base + k
  | .msgOut k => Window.msgOut.base + k
  | .sched sel j => (schedWindow sel).base + 4 * j

/-- A line of a host script (30_encoding.md R109). -/
inductive Line where
  | wr (loc : Loc) (v : Word)
  | rd (loc : Loc)
  | cmd (i : Instr)
  | wait
  | exec (i : Instr)
  | wrBytes (loc : Loc) (bs : List Byte)
  /-- The comparison with the value is the host's own and changes no CORE state. -/
  | check (loc : Loc) (v : Word)
  /-- Waiting for IRQ = 1 in place of WAIT (60_exceptions.md R313). Log 19. -/
  | waitIrq
deriving DecidableEq, Repr

/-- The 18-bit bus offset of a script location (20_memory.md R70). DESIGN CHOICE: 30_encoding.md R109 does not say what
an index beyond the address space means; the model takes the offset modulo 2^18. Log 26. -/
def busOffset (off : Nat) : BitVec 18 := BitVec.ofNat 18 off

/-- One WR per 4-byte group, packed little-endian, the last group padded with 00 bytes (30_encoding.md R109); a group
beyond the address space is log 26. -/
def writeGroups (off : Nat) : List Byte → List HostMove
  | [] => []
  | [b0] => [.write (busOffset off) (wordOfQuad ⟨b0, 0, 0, 0⟩)]
  | [b0, b1] => [.write (busOffset off) (wordOfQuad ⟨b0, b1, 0, 0⟩)]
  | [b0, b1, b2] => [.write (busOffset off) (wordOfQuad ⟨b0, b1, b2, 0⟩)]
  | b0 :: b1 :: b2 :: b3 :: bs =>
    .write (busOffset off) (wordOfQuad ⟨b0, b1, b2, b3⟩) :: writeGroups (off + 4) bs

/-- WR of a location (30_encoding.md R109); one beyond the address space is log 26. -/
def writeMove (loc : Loc) (v : Word) : HostMove := .write (busOffset loc.offset) v

/-- RD of a location (30_encoding.md R109); one beyond the address space is log 26. -/
def readMove (loc : Loc) : HostMove := .read (busOffset loc.offset)

/-- The host moves a script line expands to (30_encoding.md R109). -/
def Line.moves : Line → List HostMove
  | .wr loc v => [writeMove loc v]
  | .rd loc => [readMove loc]
  | .cmd i => [writeMove (.reg .cmd) (encode i)]
  | .wait => [.poll]
  | .exec i => [writeMove (.reg .cmd) (encode i), .poll]
  | .wrBytes loc bs => writeGroups loc.offset bs
  | .check loc _ => [readMove loc]
  | .waitIrq => [.awaitIrq]

/-- A host that will run a script (00_scope.md R19). Log 9. -/
def State.withScript (s : State) (lines : List Line) : State := { s with host := lines.flatMap Line.moves }

end Sys2Proof.Machine
end

