-- ==== Sys2Proof/Safety.lean ====
section
/-! DEFINITION. What every run keeps, in the terms the claims use, and when a run has ended. -/

namespace Sys2Proof.Machine

/-- Every byte that holds a value lies in a window (10_state.md R20). -/
def Memory.mapped (m : Memory) : Prop := ∀ c ∈ m, ∃ w : Window, w.contains c.1 = true

/-- NR is the entry of NR_TABLE for NK and NB (10_state.md R25, 45_control.md R272). -/
def Cfg.legal (c : Cfg) : Prop := c.nr = BitVec.ofNat 8 (nrTable c.nk c.nb)

/-- Whether a schedule is the rotating one (42_key_schedule.md R188). -/
def rotates : Sched → Bool
  | .a => true
  | .b => false

/-- A schedule's words are the expansion of some key under the current CFG (10_state.md R43). -/
def State.holdsExpansion (s : State) (sel : Sched) : Prop :=
  ∃ k : List Byte, 1 ≤ k.length ∧ k.length ≤ keyBufBytes ∧ readSchedule sel s = .ok (expand s.cfg k (rotates sel))

/-- The form of a state: memory canonical and inside the windows, CFG legal, BUSY exactly while a command is pending
(60_exceptions.md R300, R301; log 15), and no DONE while BUSY (10_state.md R24). -/
structure State.WellFormed (s : State) : Prop where
  memCanonical : s.mem.wf
  memMapped : s.mem.mapped
  cfgLegal : s.cfg.legal
  busyPending : s.status.busy = s.pending.isSome
  busyNotDone : s.status.busy = true → s.status.done = false

/-- A valid schedule is an expansion under the current CFG (10_state.md R43). -/
def State.SchedulesValid (s : State) : Prop := ∀ sel : Sched, s.status.valid sel = true → s.holdsExpansion sel

/-- The end of a run: the host has no more accesses and BUSY = 0 (00_scope.md R19). -/
def State.ended (s : State) : Prop := s.host = [] ∧ s.status.busy = false

end Sys2Proof.Machine
end

