-- ==== Sys2Proof/Certificates/Slice0/Obligations.lean ====
section
/-! DEFINITION. The statements for the provers. The helper definitions under Sys2Proof.Statements are written from
the rules, not from the model's own operations. -/

namespace Sys2Proof.Statements

open Sys2Proof.Machine

/-- The closing writes of a command with code e, all else as in s: the last five lines of the sequencer step in
60_exceptions.md R301. ELAPSED is a draw (log 4); delay and draws are the model's own fields (log 10, log 13). -/
def closed (e : ErrCode) (s : State) : State :=
  { s with
    status := { s.status with err := e, errSticky := s.status.errSticky || decide (e ≠ .ok), busy := false, done := true }
    elapsed := Config.elapsedFn s.draws
    draws := s.draws + 1
    pending := none
    delay := 0 }

/-- Both validity bits set. -/
def bothValid (t : Status) : Status := { t with ksaValid := true, ksbValid := true }

/-- It is the host's turn: nothing is pending, or the pending command may still wait (log 10). -/
def hostTurn (s : State) : Prop := s.pending = none ∨ s.delay ≠ 0

/-- The state once the host's first move is taken off its list (log 9, log 10). -/
def movedOn (s : State) (rest : List HostMove) : State := { s with host := rest, delay := s.delay - 1 }

/-- An offset among the n bytes from lo. -/
def inRange (lo n a : Nat) : Prop := lo ≤ a ∧ a < lo + n

/-- Every byte of memory whose offset is not in p reads in t as in s. -/
def sameOutside (p : Nat → Prop) (s t : State) : Prop := ∀ a, ¬ p a → t.mem.byteAt a = s.mem.byteAt a

/-- The two schedule windows (10_state.md R41, R42). -/
def inSchedules (a : Nat) : Prop := inRange 0x200 480 a ∨ inRange 0x400 480 a

/-- The MSG_OUT window (10_state.md R46). -/
def inMsgOut (a : Nat) : Prop := inRange 0x20000 outBytes a

/-- Row r of a column. -/
def row (q : Quad) : Nat → Byte
  | 0 => q.b0
  | 1 => q.b1
  | 2 => q.b2
  | _ => q.b3

/-- The word at index j of a sequence. -/
def wordAt (w : List Quad) (j : Nat) : Quad := w.getD j Quad.zero

/-- A polynomial divides another. -/
def gfDivides (d n : Nat) : Prop := ∃ q, n = multy q d

/-- The word count of a requested size: 192 gives 6, 256 gives 8, any other value 4 (41_tables_operators.md R163). -/
def wordsOfBits (bits : Nat) : Nat := if bits = 192 then 6 else if bits = 256 then 8 else 4

/-- The error a command ends with, from the table of 60_exceptions.md R303, first cause first. -/
def errorOf (i : Instr) (s : State) : ErrCode :=
  let zero := if s.opm = 0 then ErrCode.zeroModulus else .ok
  let key (least : Nat) (rest : ErrCode) :=
    if s.keyLen.toNat < least then ErrCode.keyLength else if 64 < s.keyLen.toNat then .length else rest
  let msg (rest : ErrCode) := if bufBytes < s.inLen.toNat then ErrCode.length else rest
  let both := if s.status.ksaValid = true ∧ s.status.ksbValid = true then ErrCode.ok else .noSchedule
  match i with
  | .gfMod => zero
  | .gfDiv => zero
  | .gfInv => zero
  | .gfMulmod => zero
  | .rcon => if 14 < s.opa.toNat then .range else .ok
  | .keyExpand => key 2 .ok
  | .keyExpandRot => key 1 .ok
  | .keyExpandNorot => key 1 .ok
  | .addRoundKey .a rnd =>
    if s.status.ksaValid = false then .noSchedule else if s.cfg.nr.toNat < rnd then .range else .ok
  | .addRoundKey .b rnd =>
    if s.status.ksbValid = false then .noSchedule else if s.cfg.nr.toNat < rnd then .range else .ok
  | .encryptBlock => both
  | .decryptBlock => both
  | .pad => msg .ok
  | .ecbEncrypt => key 2 (msg .ok)
  | .ecbDecrypt =>
    key 2 (msg (if 2 * (4 * s.cfg.nbWords) ≤ s.inLen.toNat ∧ s.inLen.toNat % (4 * s.cfg.nbWords) ≠ 0 then .length
                else .ok))
  | .nop => .ok
  | .gfMul => .ok
  | .gfGcd => .ok
  | .sbox => .ok
  | .invSbox => .ok
  | .mixcol => .ok
  | .invMixcol => .ok
  | .altMixcol => .ok
  | .invAltMixcol => .ok
  | .subBytes => .ok
  | .invSubBytes => .ok
  | .shiftRows => .ok
  | .invShiftRows => .ok
  | .mixColumns => .ok
  | .invMixColumns => .ok
  | .altMixColumns => .ok
  | .invAltMixColumns => .ok
  | .configure => .ok

/-- A reserved value of OPC (30_encoding.md R106 (a)). -/
def reservedOpc (o : Nat) : Prop :=
  (0x07 ≤ o ∧ o ≤ 0x0F) ∨ (0x17 ≤ o ∧ o ≤ 0x1F) ∨ (0x23 ≤ o ∧ o ≤ 0x30) ∨ (0x3C ≤ o ∧ o ≤ 0x3F) ∨
    (0x43 ≤ o ∧ o ≤ 0x4F) ∨ (0x51 ≤ o ∧ o ≤ 0xFF)

/-- A reserved bus offset (20_memory.md R76, 10_state.md R20). -/
def reservedOffset (off : Nat) : Prop :=
  (0x060 ≤ off ∧ off ≤ 0x0FF) ∨ (0x140 ≤ off ∧ off ≤ 0x1FF) ∨ (0x3E0 ≤ off ∧ off ≤ 0x3FF) ∨
    (0x5E0 ≤ off ∧ off ≤ 0xFFFF) ∨ (0x10000 + bufBytes ≤ off ∧ off ≤ 0x1FFFF) ∨
    (0x20000 + outBytes ≤ off ∧ off ≤ 0x3FFFF)

/-- The left rotation of a byte (41_tables_operators.md R153). -/
def rotl8 (v : Byte) (k : Nat) : Byte := v.rotateLeft k

/-- The affine map A of 41_tables_operators.md R153. -/
def affine (v : Byte) : Byte := v ^^^ rotl8 v 1 ^^^ rotl8 v 2 ^^^ rotl8 v 3 ^^^ rotl8 v 4 ^^^ 0x63

/-- A byte of a column times a coefficient, reduced by m (41_tables_operators.md R157). -/
def timesMod (m a : Nat) (b : Byte) : Byte := BitVec.ofNat 8 (gfMod (multy a b.toNat) m)

/-- A row of coefficients applied to a column (41_tables_operators.md R157). -/
def rowTimes (a0 a1 a2 a3 m : Nat) (q : Quad) : Byte :=
  timesMod m a0 q.b0 ^^^ timesMod m a1 q.b1 ^^^ timesMod m a2 q.b2 ^^^ timesMod m a3 q.b3

/-- The circulant matrix of 41_tables_operators.md R154, R155, whose row 0 is a0 a1 a2 a3 and each further row the one
before turned right by one, applied to a column. -/
def circulant (a0 a1 a2 a3 m : Nat) (q : Quad) : Quad :=
  ⟨rowTimes a0 a1 a2 a3 m q, rowTimes a3 a0 a1 a2 m q, rowTimes a2 a3 a0 a1 m q, rowTimes a1 a2 a3 a0 m q⟩

/-- Round key r of a schedule added to a matrix, column by column (43_block_transform.md R205, 42_key_schedule.md
R189). -/
def keyAdded (w : List Quad) (nb r : Nat) (m : List Quad) : List Quad :=
  (List.range nb).map fun c => (wordAt m c).xor (wordAt w (r * nb + c))

/-- The commands of 43_block_transform.md R215 to R222, each with its word and its operator on the state matrix. -/
def layerCommands : List (Word × Instr × (List Quad → List Quad)) :=
  [(0x00000031, .subBytes, subBytes), (0x00000032, .invSubBytes, invSubBytes),
   (0x00000033, .shiftRows, shiftRows), (0x00000034, .invShiftRows, invShiftRows)] ++
  [(0x00000035, .mixColumns, mixColumns), (0x00000036, .invMixColumns, invMixColumns),
   (0x00000037, .altMixColumns, altMixColumns), (0x00000038, .invAltMixColumns, invAltMixColumns)]

/-- The format-N rows of 30_encoding.md R105 as words. -/
def formatNWords : List (Word × Instr) :=
  [(0x00000000, .nop), (0x00000001, .gfMul), (0x00000002, .gfMod), (0x00000003, .gfDiv), (0x00000004, .gfGcd),
   (0x00000005, .gfInv), (0x00000006, .gfMulmod)] ++
  [(0x00000010, .sbox), (0x00000011, .invSbox), (0x00000012, .mixcol), (0x00000013, .invMixcol),
   (0x00000014, .altMixcol), (0x00000015, .invAltMixcol), (0x00000016, .rcon)] ++
  [(0x00000020, .keyExpand), (0x00000021, .keyExpandRot), (0x00000022, .keyExpandNorot)] ++
  [(0x00000031, .subBytes), (0x00000032, .invSubBytes), (0x00000033, .shiftRows), (0x00000034, .invShiftRows),
   (0x00000035, .mixColumns), (0x00000036, .invMixColumns), (0x00000037, .altMixColumns),
   (0x00000038, .invAltMixColumns), (0x0000003A, .encryptBlock), (0x0000003B, .decryptBlock)] ++
  [(0x00000040, .ecbEncrypt), (0x00000041, .ecbDecrypt), (0x00000042, .pad), (0x00000050, .configure)]

end Sys2Proof.Statements

open Sys2Proof Sys2Proof.Machine Sys2Proof.Statements

/-! Encoding and the step. -/

/-- The opcode map, whole: every row's word decodes to its command (30_encoding.md R105). -/
def Obligations.OpcodeMapDecodes : Prop :=
  (∀ p ∈ formatNWords, decode p.1 = .ok p.2) ∧
  (∀ rnd, rnd < 16 →
    decode (BitVec.ofNat 32 (rnd * 2 ^ 16 + 0x39)) = .ok (.addRoundKey .a rnd) ∧
    decode (BitVec.ofNat 32 (rnd * 2 ^ 16 + 2 ^ 8 + 0x39)) = .ok (.addRoundKey .b rnd))

/-- Decoding and encoding are each other's inverse: a word decodes to a command exactly when it is that command's
word and the command is well formed (30_encoding.md R101 to R107). -/
def Obligations.DecodeEncodeAgree : Prop :=
  ∀ (w : Word) (i : Instr), decode w = .ok i ↔ (i.wellFormed = true ∧ encode i = w)

/-- The three classes of illegal words, and what issuing one does (30_encoding.md R106). -/
def Obligations.IllegalWordsRaise : Prop :=
  ∀ w : Word,
    (decode w = .error .reservedOpcode ↔ reservedOpc (w.toNat % 2 ^ 8)) ∧
    (decode w = .error .formatNBits ↔
      ¬ reservedOpc (w.toNat % 2 ^ 8) ∧ w.toNat % 2 ^ 8 ≠ 0x39 ∧ w.toNat / 2 ^ 8 ≠ 0) ∧
    (decode w = .error .formatKBits ↔
      w.toNat % 2 ^ 8 = 0x39 ∧ (w.toNat / 2 ^ 9 % 2 ^ 7 ≠ 0 ∨ w.toNat / 2 ^ 20 ≠ 0)) ∧
    (∀ e, decode w = .error e → ∀ s : State, s.pending = some w → (s.delay = 0 ∨ s.host = []) →
      step s = .next (closed .illegalCmd s))

/-- A step completes the pending command by running what it decodes to. Whose turn it is is log 10. -/
def Obligations.StepRunsDecodedCommand : Prop :=
  ∀ (s : State) (w : Word) (i : Instr), s.pending = some w → (s.delay = 0 ∨ s.host = []) → decode w = .ok i →
    step s = exec i s

/-- A host write of any word to CMD: accepted while BUSY = 0, dropped with BUSY_VIOL while BUSY = 1 (60_exceptions.md
R300). The delay is a draw of the model (log 10). -/
def Obligations.AnyCommandWordIsAccepted : Prop :=
  ∀ (s : State) (v : Word) (rest : List HostMove), s.host = .write 0x004 v :: rest →
    (s.status.busy = false → s.pending = none →
      ∃ d, step s = .next
        { s with
          host := rest
          pending := some v
          status := { s.status with busy := true, done := false }
          delay := d
          draws := s.draws + 1 }) ∧
    (s.status.busy = true → s.delay ≠ 0 →
      step s = .next { movedOn s rest with status := { s.status with busyViol := true } })

/-- Every completion, successful or not: BUSY = 0, DONE = 1, nothing pending, the sticky bit set by an error and
otherwise kept, BUSY_VIOL kept (60_exceptions.md R301, 10_state.md R24). -/
def Obligations.CompletionClosesCommand : Prop :=
  ∀ (i : Instr) (s t : State), exec i s = .next t →
    t.status.busy = false ∧ t.status.done = true ∧ t.pending = none ∧
    t.status.errSticky = (s.status.errSticky || decide (t.status.err ≠ .ok)) ∧
    t.status.busyViol = s.status.busyViol

/-- IRQ = CTRL.IE AND STATUS.DONE, 0 after reset (10_state.md R49), and so it rises at every completion when IE = 1. -/
def Obligations.IrqFollowsDoneAndEnable : Prop :=
  (∀ s : State, s.irq = (s.ie && s.status.done)) ∧ State.reset.irq = false ∧
  (∀ (i : Instr) (s t : State), exec i s = .next t → t.irq = s.ie)

/-- A command that raises an error writes nothing but STATUS and ELAPSED (60_exceptions.md R304). -/
def Obligations.ErrorsArePrecise : Prop :=
  ∀ (i : Instr) (s t : State), exec i s = .next t → t.status.err ≠ .ok → t = closed t.status.err s

/-- Which error a command ends with, first cause first, and the codes (60_exceptions.md R302, R305). -/
def Obligations.FirstCauseIsReported : Prop :=
  (ErrCode.ok.code = 0 ∧ ErrCode.illegalCmd.code = 1 ∧ ErrCode.zeroModulus.code = 2 ∧ ErrCode.keyLength.code = 3 ∧
    ErrCode.length.code = 4 ∧ ErrCode.noSchedule.code = 5 ∧ ErrCode.range.code = 6) ∧
  (∀ (i : Instr) (s t : State), exec i s = .next t → t.status.err = errorOf i s) ∧
  (∀ (i : Instr) (s : State), errorOf i s ≠ .ok → exec i s = .next (closed (errorOf i s) s)) ∧
  (∀ (s : State) (w : Word) (e : Illegal), s.pending = some w → (s.delay = 0 ∨ s.host = []) → decode w = .error e →
    step s = .next (closed .illegalCmd s))

/-- What no command writes: the operand and length registers, CFG_REQ, CTRL, KEY_BUF, MSG_IN, the STATE columns at and
above NB, and the host's side of the model (10_state.md R26 to R30, R34, R35, R39, R40, R45). -/
def Obligations.CommandsKeepTheirInputs : Prop :=
  ∀ (i : Instr) (s t : State), exec i s = .next t →
    t.opa = s.opa ∧ t.opb = s.opb ∧ t.opm = s.opm ∧ t.keyLen = s.keyLen ∧ t.inLen = s.inLen ∧ t.cfgReq = s.cfgReq ∧
    t.ie = s.ie ∧ t.host = s.host ∧ t.rdata = s.rdata ∧
    (∀ a, inRange 0x100 64 a → t.mem.byteAt a = s.mem.byteAt a) ∧
    (∀ a, inRange 0x10000 bufBytes a → t.mem.byteAt a = s.mem.byteAt a) ∧
    (∀ a, 0x040 + 4 * s.cfg.nbWords ≤ a → a < 0x060 → t.mem.byteAt a = s.mem.byteAt a)

/-- CFG changes only when CONFIGURE completes or CORE is reset (10_state.md R25, 45_control.md R273). -/
def Obligations.OnlyConfigureChangesCfg : Prop :=
  ∀ s t : State, step s = .next t → t.cfg ≠ s.cfg →
    s.sequencerWord = some 0x00000050 ∨ (s.sequencerWord = none ∧ ∃ rest, s.host = .reset :: rest)

/-- What sets and clears the validity bits: a successful command that writes the schedule, CONFIGURE, reset, and
nothing else (10_state.md R43). -/
def Obligations.ValidityBitsFollowTheRule : Prop :=
  (∀ (i : Instr) (s t : State), exec i s = .next t →
    t.status.ksaValid =
      (if i = .configure then false
       else if t.status.err = .ok ∧ (i = .keyExpand ∨ i = .keyExpandRot ∨ i = .ecbEncrypt ∨ i = .ecbDecrypt) then true
       else s.status.ksaValid) ∧
    t.status.ksbValid =
      (if i = .configure then false
       else if t.status.err = .ok ∧ (i = .keyExpand ∨ i = .keyExpandNorot ∨ i = .ecbEncrypt ∨ i = .ecbDecrypt) then true
       else s.status.ksbValid)) ∧
  (∀ s t : State, s.sequencerWord = none → step s = .next t →
    (s.host.head? = some .reset → t.status.ksaValid = false ∧ t.status.ksbValid = false) ∧
    (s.host.head? ≠ some .reset →
      t.status.ksaValid = s.status.ksaValid ∧ t.status.ksbValid = s.status.ksbValid))

/-! GF Engine. -/

/-- GF_MUL to GF_MULMOD: encoding, result, errors, and all else unchanged (40_gf_engine.md R132 to R137). -/
def Obligations.GfCommandResults : Prop :=
  (decode 0x00000001 = .ok .gfMul ∧ decode 0x00000002 = .ok .gfMod ∧ decode 0x00000003 = .ok .gfDiv ∧
    decode 0x00000004 = .ok .gfGcd ∧ decode 0x00000005 = .ok .gfInv ∧ decode 0x00000006 = .ok .gfMulmod) ∧
  ∀ s : State,
    (exec .gfMul s = .next (closed .ok
      { s with
        res0 := BitVec.ofNat 32 (multy s.opa.toNat s.opb.toNat % 2 ^ 32)
        res1 := BitVec.ofNat 32 (multy s.opa.toNat s.opb.toNat / 2 ^ 32) })) ∧
    (exec .gfGcd s = .next (closed .ok
      { s with
        res0 := BitVec.ofNat 32 (advancedGcd s.opa.toNat s.opb.toNat).x
        res1 := BitVec.ofNat 32 (advancedGcd s.opa.toNat s.opb.toNat).y
        res2 := BitVec.ofNat 32 (advancedGcd s.opa.toNat s.opb.toNat).g })) ∧
    (s.opm ≠ 0 →
      exec .gfMod s = .next (closed .ok { s with res0 := BitVec.ofNat 32 (gfMod s.opa.toNat s.opm.toNat) }) ∧
      exec .gfDiv s = .next (closed .ok { s with res0 := BitVec.ofNat 32 (dividing s.opa.toNat s.opm.toNat) }) ∧
      exec .gfInv s = .next (closed .ok
        { s with
          res0 := BitVec.ofNat 32 (advancedGcd (gfMod s.opa.toNat s.opm.toNat) s.opm.toNat).x
          res1 := BitVec.ofNat 32 (advancedGcd (gfMod s.opa.toNat s.opm.toNat) s.opm.toNat).y
          res2 := BitVec.ofNat 32 (advancedGcd (gfMod s.opa.toNat s.opm.toNat) s.opm.toNat).g }) ∧
      exec .gfMulmod s = .next (closed .ok
        { s with res0 := BitVec.ofNat 32 (gfMod (multy s.opa.toNat s.opb.toNat) s.opm.toNat) })) ∧
    (s.opm = 0 →
      exec .gfMod s = .next (closed .zeroModulus s) ∧ exec .gfDiv s = .next (closed .zeroModulus s) ∧
      exec .gfInv s = .next (closed .zeroModulus s) ∧ exec .gfMulmod s = .next (closed .zeroModulus s))

/-- Multy's coefficient k is the XOR of all a[i] and b[k-i]; the product of 32-bit values has at most 63 bits
(40_gf_engine.md R121). -/
def Obligations.MultyIsCarrylessProduct : Prop :=
  (∀ a b k : Nat,
    (multy a b).testBit k =
      (List.range (k + 1)).foldl (fun acc i => acc ^^ (a.testBit i && b.testBit (k - i))) false) ∧
  (∀ a b : Nat, a < 2 ^ 32 → b < 2 ^ 32 → multy a b < 2 ^ 63)

/-- Multy is multiplication in GF(2)[x] (40_gf_engine.md R122). -/
def Obligations.MultyRingLaws : Prop :=
  (∀ a b : Nat, multy a b = multy b a) ∧
  (∀ a b c : Nat, multy (multy a b) c = multy a (multy b c)) ∧
  (∀ a b c : Nat, multy a (b ^^^ c) = multy a b ^^^ multy a c) ∧
  (∀ a : Nat, multy a 1 = a ∧ multy a 0 = 0) ∧
  (∀ a k : Nat, multy a (1 <<< k) = a <<< k) ∧
  (∀ a b : Nat, a ≠ 0 → b ≠ 0 → bitlen (multy a b) + 1 = bitlen a + bitlen b)

/-- Mod and Dividing are the loops of their rules, run to the end (40_gf_engine.md R123, R125). -/
def Obligations.ModAndDividingFollowTheirLoops : Prop :=
  (∀ n m : Nat, m ≠ 0 → n ≠ 0 → bitlen m ≤ bitlen n →
    gfMod n m = gfMod (n ^^^ (m <<< (bitlen n - bitlen m))) m ∧
    dividing n m = dividing (n ^^^ (m <<< (bitlen n - bitlen m))) m ^^^ (1 <<< (bitlen n - bitlen m))) ∧
  (∀ n m : Nat, m ≠ 0 → (n = 0 ∨ bitlen n < bitlen m) → gfMod n m = n ∧ dividing n m = 0) ∧
  (∀ n d : Nat, d ≠ 0 → n < 2 ^ 32 → dividing n d < 2 ^ 32)

/-- The laws of Mod (40_gf_engine.md R124). -/
def Obligations.ModLaws : Prop :=
  ∀ m : Nat, m ≠ 0 →
    (∀ n, gfMod n m = 0 ∨ bitlen (gfMod n m) < bitlen m) ∧
    (∀ n, bitlen n < bitlen m → gfMod n m = n) ∧
    gfMod 0 m = 0 ∧ gfMod m m = 0 ∧ (∀ n, gfMod n 1 = 0) ∧
    (∀ n1 n2, gfMod (n1 ^^^ n2) m = gfMod n1 m ^^^ gfMod n2 m)

/-- Dividing and Mod are the quotient and remainder of polynomial division, and the only ones (40_gf_engine.md
R126). -/
def Obligations.DivisionLaw : Prop :=
  ∀ n d : Nat, d ≠ 0 →
    n = multy (dividing n d) d ^^^ gfMod n d ∧
    (∀ q r, n = multy q d ^^^ r → (r = 0 ∨ bitlen r < bitlen d) → q = dividing n d ∧ r = gfMod n d)

/-- AdvancedGCD: the base case, the recursion, the Bezout relation, and that g is a greatest common divisor
(40_gf_engine.md R127). -/
def Obligations.AdvancedGcdIsExtendedEuclid : Prop :=
  (∀ b : Nat, advancedGcd 0 b = ⟨0, 1, b⟩) ∧
  (∀ a b : Nat, a ≠ 0 →
    advancedGcd a b =
      ⟨(advancedGcd (gfMod b a) a).y ^^^ multy (dividing b a) (advancedGcd (gfMod b a) a).x,
       (advancedGcd (gfMod b a) a).x, (advancedGcd (gfMod b a) a).g⟩) ∧
  (∀ a b : Nat,
    multy a (advancedGcd a b).x ^^^ multy b (advancedGcd a b).y = (advancedGcd a b).g ∧
    gfDivides (advancedGcd a b).g a ∧ gfDivides (advancedGcd a b).g b ∧
    (∀ d, gfDivides d a → gfDivides d b → gfDivides d (advancedGcd a b).g) ∧
    ((advancedGcd a b).g = 0 ↔ a = 0 ∧ b = 0))

/-- The results of GF_GCD and GF_INV fit in 32 bits, so nothing is lost in RES0 to RES2 (40_gf_engine.md R128). -/
def Obligations.GcdResultsFitTheRegisters : Prop :=
  ∀ a b : Nat, a < 2 ^ 32 → b < 2 ^ 32 →
    (advancedGcd a b).x < 2 ^ 32 ∧ (advancedGcd a b).y < 2 ^ 32 ∧ (advancedGcd a b).g < 2 ^ 32

/-- What GF_INV's RES0 is: the inverse when the gcd is 1, and in every case the x whose product with n is the gcd
modulo m (40_gf_engine.md R129). The modulus 1, under which 1 reduces to 0, is the second clause's exception. -/
def Obligations.MultiplicativeReverseInverts : Prop :=
  ∀ n m : Nat, m ≠ 0 →
    gfMod (multy n (multiplicativeReverse n m).x) m = gfMod (multiplicativeReverse n m).g m ∧
    ((multiplicativeReverse n m).g = 1 → m ≠ 1 → gfMod (multy n (multiplicativeReverse n m).x) m = 1) ∧
    ((multiplicativeReverse n m).g = 1 →
      (multiplicativeReverse n m).x = 0 ∨ bitlen (multiplicativeReverse n m).x < bitlen m) ∧
    (gfMod n m = 0 → multiplicativeReverse n m = ⟨0, 1, m⟩)

/-! Cipher Tables. -/

/-- SBOX to RCON: encoding, result in RES0, the error of RCON, and all else unchanged (41_tables_operators.md R167 to
R173), and the RCON table: 15 entries, entry 0 the open RCON0, entry i the power x^(i-1) modulo 0x11B (R160, R161). -/
def Obligations.TableCommandResults : Prop :=
  (decode 0x00000010 = .ok .sbox ∧ decode 0x00000011 = .ok .invSbox ∧ decode 0x00000012 = .ok .mixcol ∧
    decode 0x00000013 = .ok .invMixcol ∧ decode 0x00000014 = .ok .altMixcol ∧
    decode 0x00000015 = .ok .invAltMixcol ∧ decode 0x00000016 = .ok .rcon) ∧
  (rconTable.length = 15 ∧ rconTable.getD 0 0 = Config.rcon0 ∧
    ∀ i, 1 ≤ i → i ≤ 14 → rconTable.getD i 0 = BitVec.ofNat 8 (gfMod (1 <<< (i - 1)) 0x11B)) ∧
  ∀ s : State,
    let b : Byte := BitVec.ofNat 8 (s.opa.toNat % 2 ^ 8)
    let col : Quad := ⟨BitVec.ofNat 8 s.opa.toNat, BitVec.ofNat 8 (s.opa.toNat / 2 ^ 8),
      BitVec.ofNat 8 (s.opa.toNat / 2 ^ 16), BitVec.ofNat 8 (s.opa.toNat / 2 ^ 24)⟩
    let packed (q : Quad) : Word :=
      BitVec.ofNat 32 (q.b3.toNat * 2 ^ 24 + q.b2.toNat * 2 ^ 16 + q.b1.toNat * 2 ^ 8 + q.b0.toNat)
    exec .sbox s = .next (closed .ok { s with res0 := BitVec.ofNat 32 (sbox b).toNat }) ∧
    exec .invSbox s = .next (closed .ok { s with res0 := BitVec.ofNat 32 (invSbox b).toNat }) ∧
    exec .mixcol s = .next (closed .ok { s with res0 := packed (mixColumn col mix 0x11B) }) ∧
    exec .invMixcol s = .next (closed .ok { s with res0 := packed (mixColumn col invMix 0x11B) }) ∧
    exec .altMixcol s = .next (closed .ok { s with res0 := packed (mixColumn col altMix 0x133) }) ∧
    exec .invAltMixcol s = .next (closed .ok { s with res0 := packed (mixColumn col altInvMix 0x133) }) ∧
    (s.opa.toNat ≤ 14 →
      exec .rcon s = .next (closed .ok { s with res0 := BitVec.ofNat 32 (rconTable.getD s.opa.toNat 0).toNat })) ∧
    (14 < s.opa.toNat → exec .rcon s = .next (closed .range s))

/-- The S-box equals its construction, with the rule's samples (41_tables_operators.md R153), and INV_SBOX is its
exact inverse (R152). -/
def Obligations.SboxMatchesItsConstruction : Prop :=
  (∀ b : Byte, sbox b = affine (BitVec.ofNat 8 (multiplicativeReverse b.toNat 0x11B).x)) ∧
  (sbox 0x00 = 0x63 ∧ sbox 0x01 = 0x7C ∧ sbox 0x53 = 0xED ∧ sbox 0xFF = 0x16 ∧ invSbox 0x63 = 0x00 ∧
    invSbox 0x00 = 0x52) ∧
  (∀ b : Byte, invSbox (sbox b) = b ∧ sbox (invSbox b) = b)

/-- MixColumn by its formula for the four operators, and MIX and INV_MIX undo each other on every column under both
moduli (41_tables_operators.md R154 to R158). -/
def Obligations.ColumnOperators : Prop :=
  (∀ (col : Quad) (m : Nat), (m = 0x11B ∨ m = 0x133) →
    mixColumn col mix m = circulant 0x02 0x03 0x01 0x01 m col ∧
    mixColumn col altMix m = circulant 0x02 0x03 0x01 0x01 m col ∧
    mixColumn col invMix m = circulant 0x0E 0x0B 0x0D 0x09 m col ∧
    mixColumn col altInvMix m = circulant 0x0E 0x0B 0x0D 0x09 m col) ∧
  (∀ (col : Quad) (m : Nat), (m = 0x11B ∨ m = 0x133) →
    mixColumn (mixColumn col mix m) invMix m = col ∧ mixColumn (mixColumn col invMix m) mix m = col)

/-! Control. -/

/-- NOP completes with no other effect, and no other word with its opcode is a NOP (45_control.md R270). -/
def Obligations.NopOnlyCompletes : Prop :=
  decode 0x00000000 = .ok .nop ∧ (∀ s : State, exec .nop s = .next (closed .ok s)) ∧
  ∀ w : Word, w.toNat % 2 ^ 8 = 0x00 → w.toNat / 2 ^ 8 ≠ 0 → decode w = .error .formatNBits

/-- CONFIGURE: NB and NK from the two requested sizes, NR from NR_TABLE, both validity bits cleared, all else unchanged
(45_control.md R271, R272); every entry of NR_TABLE lies in 1 to 14, the one for (128, 128) is 10, and the default table
has max(NB, NK) + 6 (41_tables_operators.md R164 to R166). The other entries are the parameter's (log 3). -/
def Obligations.ConfigureResult : Prop :=
  decode 0x00000050 = .ok .configure ∧
  (∀ s : State, ∃ t, exec .configure s = .next t ∧
    t.cfg.nbWords = wordsOfBits (s.cfgReq.toNat % 2 ^ 16) ∧
    t.cfg.nkWords = wordsOfBits (s.cfgReq.toNat / 2 ^ 16) ∧
    t.cfg.nr.toNat = nrTable t.cfg.nk t.cfg.nb ∧
    t.cfg.word.toNat = t.cfg.nr.toNat * 2 ^ 8 + t.cfg.nkWords * 2 ^ 4 + t.cfg.nbWords ∧
    t = closed .ok { s with cfg := t.cfg, status := { s.status with ksaValid := false, ksbValid := false } }) ∧
  nrTable .bits128 .bits128 = 10 ∧
  ∀ kc bc : SizeClass, 1 ≤ nrTable kc bc ∧ nrTable kc bc ≤ 14 ∧ nrDefault kc bc = max kc.words bc.words + 6

/-! Key Schedule. -/

/-- Expand: its length, seed words and recurrence (42_key_schedule.md R181 to R185). -/
def Obligations.ExpandFollowsTheRecurrence : Prop :=
  ∀ (c : Cfg) (k : List Byte) (rot : Bool), c.legal → k ≠ [] →
    let nb := c.nbWords
    let nk := c.nkWords
    let w := expand c k rot
    let s := fun j => k.getD (j % k.length) 0
    w.length = (c.nr.toNat + 1) * nb ∧
    (∀ j, j < nk → wordAt w j = ⟨s (4 * j), s (4 * j + 1), s (4 * j + 2), s (4 * j + 3)⟩) ∧
    (∀ i, nk ≤ i → i < w.length → i % nk ≠ 0 → wordAt w i = (wordAt w (i - 1)).xor (wordAt w (i - nk))) ∧
    (∀ i, nk ≤ i → i < w.length → i % nk = 0 →
      let t := wordAt w (i - 1)
      let u : Quad := if rot then ⟨t.b1, t.b2, t.b3, t.b0⟩ else t
      i / nb < 15 ∧
      wordAt w i =
        Quad.xor ⟨sbox u.b0 ^^^ rconTable.getD (i / nb) 0, sbox u.b1, sbox u.b2, sbox u.b3⟩ (wordAt w (i - nk)))

/-- KEY_EXPAND: both schedules from the two halves of the key, their validity bits, its errors, and all else
unchanged but schedule words beyond the expansion (42_key_schedule.md R187, R188, R190), which hold a value exactly when
they did before (10_state.md R44, 90_conflicts.md C5; log 8). -/
def Obligations.KeyExpandResult : Prop :=
  decode 0x00000020 = .ok .keyExpand ∧
  ∀ s : State,
    (s.keyLen.toNat < 2 → exec .keyExpand s = .next (closed .keyLength s)) ∧
    (64 < s.keyLen.toNat → exec .keyExpand s = .next (closed .length s)) ∧
    (∀ k, 2 ≤ s.keyLen.toNat → s.keyLen.toNat ≤ 64 → s.cfg.legal →
      s.mem.readBytes 0x100 s.keyLen.toNat = .ok k →
      ∃ t, exec .keyExpand s = .next t ∧
        readSchedule .a t = .ok (expand s.cfg (k.take (s.keyLen.toNat / 2)) true) ∧
        readSchedule .b t = .ok (expand s.cfg (k.drop (s.keyLen.toNat / 2)) false) ∧
        t = closed .ok { s with mem := t.mem, status := bothValid s.status } ∧
        sameOutside inSchedules s t ∧
        (∀ a, inRange (0x200 + 4 * s.cfg.schedLen) (480 - 4 * s.cfg.schedLen) a ∨
              inRange (0x400 + 4 * s.cfg.schedLen) (480 - 4 * s.cfg.schedLen) a →
          (t.mem.byteAt a).isSome = (s.mem.byteAt a).isSome))

/-- KEY_EXPAND_ROT and KEY_EXPAND_NOROT: one schedule of the whole key, its validity bit, their errors, and all else
unchanged (42_key_schedule.md R191, R192). -/
def Obligations.WholeKeyCommandResults : Prop :=
  (decode 0x00000021 = .ok .keyExpandRot ∧ decode 0x00000022 = .ok .keyExpandNorot) ∧
  ∀ s : State,
    (s.keyLen.toNat = 0 → exec .keyExpandRot s = .next (closed .keyLength s) ∧
      exec .keyExpandNorot s = .next (closed .keyLength s)) ∧
    (64 < s.keyLen.toNat → exec .keyExpandRot s = .next (closed .length s) ∧
      exec .keyExpandNorot s = .next (closed .length s)) ∧
    (∀ k, 1 ≤ s.keyLen.toNat → s.keyLen.toNat ≤ 64 → s.cfg.legal →
      s.mem.readBytes 0x100 s.keyLen.toNat = .ok k →
      (∃ t, exec .keyExpandRot s = .next t ∧ readSchedule .a t = .ok (expand s.cfg k true) ∧
        t = closed .ok { s with mem := t.mem, status := { s.status with ksaValid := true } } ∧
        sameOutside (inRange 0x200 480) s t) ∧
      (∃ t, exec .keyExpandNorot s = .next t ∧ readSchedule .b t = .ok (expand s.cfg k false) ∧
        t = closed .ok { s with mem := t.mem, status := { s.status with ksbValid := true } } ∧
        sameOutside (inRange 0x400 480) s t))

/-! Block Transform. -/

/-- ShiftRows and InvShiftRows entry by entry, for every Nb (43_block_transform.md R202, R203). -/
def Obligations.ShiftRowsEntries : Prop :=
  ∀ (m : List Quad) (r c : Nat), (m.length = 4 ∨ m.length = 6 ∨ m.length = 8) → r < 4 → c < m.length →
    row (wordAt (shiftRows m) c) r = row (wordAt m ((c + r) % m.length)) r ∧
    row (wordAt (invShiftRows m) c) r = row (wordAt m (((c : Int) - r) % m.length).toNat) r ∧
    invShiftRows (shiftRows m) = m ∧ shiftRows (invShiftRows m) = m

/-- SUB_BYTES to INV_ALT_MIX_COLUMNS: the operator applied to STATE columns 0 to NB-1, and all else unchanged, the
columns at and above NB included (43_block_transform.md R213, R215 to R222); SubBytes and InvSubBytes byte by byte and
the four diffusion layers column by column (R201, R204). ShiftRows and InvShiftRows are ShiftRowsEntries. -/
def Obligations.LayerCommandResults : Prop :=
  (∀ p ∈ layerCommands, decode p.1 = .ok p.2.1 ∧
    ∀ (s : State) (m : List Quad), readColumns s = .ok m →
      ∃ t, exec p.2.1 s = .next t ∧ readColumns t = .ok (p.2.2 m) ∧
        t = closed .ok { s with mem := t.mem } ∧ sameOutside (inRange 0x040 (4 * s.cfg.nbWords)) s t) ∧
  (∀ (m : List Quad) (r c : Nat), r < 4 → c < m.length →
    row (wordAt (subBytes m) c) r = sbox (row (wordAt m c) r) ∧
    row (wordAt (invSubBytes m) c) r = invSbox (row (wordAt m c) r) ∧
    wordAt (mixColumns m) c = mixColumn (wordAt m c) mix 0x11B ∧
    wordAt (invMixColumns m) c = mixColumn (wordAt m c) invMix 0x11B ∧
    wordAt (altMixColumns m) c = mixColumn (wordAt m c) altMix 0x133 ∧
    wordAt (invAltMixColumns m) c = mixColumn (wordAt m c) altInvMix 0x133)

/-- ADD_ROUND_KEY: the words of round key RND added to the columns, its errors in order, and all else unchanged
(43_block_transform.md R205, R223; 42_key_schedule.md R189). -/
def Obligations.AddRoundKeyResult : Prop :=
  ∀ (s : State) (sel : Sched) (rnd : Nat), rnd < 16 →
    decode (BitVec.ofNat 32 (rnd * 2 ^ 16 + (if sel = .b then 2 ^ 8 else 0) + 0x39)) = .ok (.addRoundKey sel rnd) ∧
    (s.status.valid sel = false → exec (.addRoundKey sel rnd) s = .next (closed .noSchedule s)) ∧
    (s.status.valid sel = true → s.cfg.nr.toNat < rnd →
      exec (.addRoundKey sel rnd) s = .next (closed .range s)) ∧
    (∀ w m, s.status.valid sel = true → rnd ≤ s.cfg.nr.toNat → readSchedule sel s = .ok w →
      readColumns s = .ok m →
      ∃ t n, exec (.addRoundKey sel rnd) s = .next t ∧ readColumns t = .ok n ∧
        (∀ c, c < s.cfg.nbWords → wordAt n c = (wordAt m c).xor (wordAt w (rnd * s.cfg.nbWords + c))) ∧
        t = closed .ok { s with mem := t.mem } ∧ sameOutside (inRange 0x040 (4 * s.cfg.nbWords)) s t)

/-- ENCRYPT_BLOCK and DECRYPT_BLOCK: the pipeline applied to the block in STATE, their error, and all else unchanged
(43_block_transform.md R224, R225). -/
def Obligations.WholeBlockResults : Prop :=
  (decode 0x0000003A = .ok .encryptBlock ∧ decode 0x0000003B = .ok .decryptBlock) ∧
  ∀ s : State,
    ((s.status.ksaValid = false ∨ s.status.ksbValid = false) →
      exec .encryptBlock s = .next (closed .noSchedule s) ∧ exec .decryptBlock s = .next (closed .noSchedule s)) ∧
    (∀ wA wB m, s.status.ksaValid = true → s.status.ksbValid = true → readSchedule .a s = .ok wA →
      readSchedule .b s = .ok wB → readColumns s = .ok m →
      (∃ t, exec .encryptBlock s = .next t ∧
        t.mem.readBytes 0x040 (4 * s.cfg.nbWords) =
          .ok (encryptBlock (flatten m) wA wB s.cfg.nbWords s.cfg.nr.toNat) ∧
        t = closed .ok { s with mem := t.mem } ∧ sameOutside (inRange 0x040 (4 * s.cfg.nbWords)) s t) ∧
      (∃ t, exec .decryptBlock s = .next t ∧
        t.mem.readBytes 0x040 (4 * s.cfg.nbWords) =
          .ok (decryptBlock (flatten m) wA wB s.cfg.nbWords s.cfg.nr.toNat) ∧
        t = closed .ok { s with mem := t.mem } ∧ sameOutside (inRange 0x040 (4 * s.cfg.nbWords)) s t))

/-- The two pipelines step by step: the matrix after each round, the alternate layer in even rounds only, key A before
key B in encryption and the reverse order in decryption (43_block_transform.md R206, R208). -/
def Obligations.PipelinesFollowTheirRounds : Prop :=
  ∀ (nb nr : Nat) (wA wB : List Quad) (b : List Byte), (nb = 4 ∨ nb = 6 ∨ nb = 8) → 1 ≤ nr →
    wA.length = (nr + 1) * nb → wB.length = (nr + 1) * nb → b.length = 4 * nb →
    (∃ e : Nat → List Quad,
      e 0 = keyAdded wB nb 0 (keyAdded wA nb 0 (load b)) ∧
      (∀ i, 1 ≤ i → i < nr →
        let m := keyAdded wB nb i (keyAdded wA nb i (mixColumns (shiftRows (subBytes (e (i - 1))))))
        e i = if i % 2 = 0 then altMixColumns m else m) ∧
      load (encryptBlock b wA wB nb nr) =
        keyAdded wB nb nr (keyAdded wA nb nr (shiftRows (subBytes (e (nr - 1)))))) ∧
    (∃ d : Nat → List Quad,
      d nr = invSubBytes (invShiftRows (keyAdded wA nb nr (keyAdded wB nb nr (load b)))) ∧
      (∀ i, 1 ≤ i → i < nr →
        let m := if i % 2 = 0 then invAltMixColumns (d (i + 1)) else d (i + 1)
        d i = invSubBytes (invShiftRows (invMixColumns (keyAdded wA nb i (keyAdded wB nb i m))))) ∧
      load (decryptBlock b wA wB nb nr) = keyAdded wA nb 0 (keyAdded wB nb 0 (d 1)))

/-- The encrypt and decrypt pipelines undo each other, for every schedule pair and block (43_block_transform.md
R210). -/
def Obligations.BlockPipelinesInvert : Prop :=
  ∀ (nb nr : Nat) (wA wB : List Quad) (b : List Byte), (nb = 4 ∨ nb = 6 ∨ nb = 8) →
    wA.length = (nr + 1) * nb → wB.length = (nr + 1) * nb → b.length = 4 * nb →
    decryptBlock (encryptBlock b wA wB nb nr) wA wB nb nr = b ∧
    encryptBlock (decryptBlock b wA wB nb nr) wA wB nb nr = b

/-- At the machine: a successful ENCRYPT_BLOCK followed by DECRYPT_BLOCK restores every byte of memory, and the other
way round (43_block_transform.md R210, R224, R225). -/
def Obligations.EncryptThenDecryptRestoresMemory : Prop :=
  ∀ s t : State,
    (exec .encryptBlock s = .next t → t.status.err = .ok →
      ∃ u, exec .decryptBlock t = .next u ∧ u.status.err = .ok ∧ ∀ a, u.mem.byteAt a = s.mem.byteAt a) ∧
    (exec .decryptBlock s = .next t → t.status.err = .ok →
      ∃ u, exec .encryptBlock t = .next u ∧ u.status.err = .ok ∧ ∀ a, u.mem.byteAt a = s.mem.byteAt a)

/-! ECB Framing. -/

/-- Pad byte by byte, the message, zeros, the marker at L + missing, zeros, and the padded length, a whole number of
blocks and one more than the message needs (44_ecb_frame.md R241, R242). -/
def Obligations.PadLayout : Prop :=
  ∀ (p : List Byte) (t : Nat), 0 < t → t ≤ 32 →
    let missing := (t - p.length % t) % t
    (padMessage p t).length = p.length + missing + t ∧
    (padMessage p t).length % t = 0 ∧ (padMessage p t).length / t = (p.length + t - 1) / t + 1 ∧
    p.length + 1 ≤ (padMessage p t).length ∧ (padMessage p t).length ≤ p.length + 2 * t - 1 ∧
    (∀ i, i < p.length → (padMessage p t)[i]? = p[i]?) ∧
    (padMessage p t)[p.length + missing]? = some (BitVec.ofNat 8 missing) ∧
    (∀ i, p.length ≤ i → i < p.length + missing + t → i ≠ p.length + missing → (padMessage p t)[i]? = some 0)

/-- PAD: the padded message in MSG_OUT, its length in OUT_LEN, its error, and all else unchanged (44_ecb_frame.md
R245). MSG_OUT above OUT_LEN is unspecified (10_state.md R46; log 7). -/
def Obligations.PadCommandResult : Prop :=
  decode 0x00000042 = .ok .pad ∧
  ∀ s : State,
    (bufBytes < s.inLen.toNat → exec .pad s = .next (closed .length s)) ∧
    (∀ p, s.inLen.toNat ≤ bufBytes → s.mem.readBytes 0x10000 s.inLen.toNat = .ok p →
      ∃ t, exec .pad s = .next t ∧ t.outLen.toNat = (padMessage p (4 * s.cfg.nbWords)).length ∧
        t.outLen.toNat ≤ outBytes ∧
        t.mem.readBytes 0x20000 t.outLen.toNat = .ok (padMessage p (4 * s.cfg.nbWords)) ∧
        t = closed .ok { s with mem := t.mem, outLen := t.outLen } ∧ sameOutside inMsgOut s t)

/-- ECB_ENCRYPT: the ciphertext in MSG_OUT, OUT_LEN = IN_LEN + missing + T, both schedules, its errors in order,
and all else unchanged, STATE included (44_ecb_frame.md R241 to R243, R246, R253, and R247's first form; log 25). -/
def Obligations.EcbEncryptResult : Prop :=
  decode 0x00000040 = .ok .ecbEncrypt ∧
  ∀ s : State,
    (s.keyLen.toNat < 2 → exec .ecbEncrypt s = .next (closed .keyLength s)) ∧
    (64 < s.keyLen.toNat → exec .ecbEncrypt s = .next (closed .length s)) ∧
    (2 ≤ s.keyLen.toNat → s.keyLen.toNat ≤ 64 → bufBytes < s.inLen.toNat →
      exec .ecbEncrypt s = .next (closed .length s)) ∧
    (∀ k p, 2 ≤ s.keyLen.toNat → s.keyLen.toNat ≤ 64 → s.inLen.toNat ≤ bufBytes → s.cfg.legal →
      s.mem.readBytes 0x100 s.keyLen.toNat = .ok k → s.mem.readBytes 0x10000 s.inLen.toNat = .ok p →
      ∃ t, exec .ecbEncrypt s = .next t ∧
        t.outLen.toNat =
          s.inLen.toNat + (4 * s.cfg.nbWords - s.inLen.toNat % (4 * s.cfg.nbWords)) % (4 * s.cfg.nbWords) +
            4 * s.cfg.nbWords ∧
        t.mem.readBytes 0x20000 t.outLen.toNat = .ok (ecbEncrypt s.cfg k p) ∧
        readSchedule .a t = .ok (expand s.cfg (k.take (s.keyLen.toNat / 2)) true) ∧
        readSchedule .b t = .ok (expand s.cfg (k.drop (s.keyLen.toNat / 2)) false) ∧
        t = closed .ok { s with mem := t.mem, outLen := t.outLen, status := bothValid s.status } ∧
        sameOutside (fun a => inSchedules a ∨ inMsgOut a) s t)

/-- ECB_DECRYPT: the stripped plaintext, or the input itself below two blocks, both schedules, its errors in order, and
all else unchanged, STATE included (44_ecb_frame.md R249, R250, R253). -/
def Obligations.EcbDecryptResult : Prop :=
  decode 0x00000041 = .ok .ecbDecrypt ∧
  ∀ s : State,
    (s.keyLen.toNat < 2 → exec .ecbDecrypt s = .next (closed .keyLength s)) ∧
    (64 < s.keyLen.toNat → exec .ecbDecrypt s = .next (closed .length s)) ∧
    (2 ≤ s.keyLen.toNat → s.keyLen.toNat ≤ 64 →
      (bufBytes < s.inLen.toNat ∨
        (2 * (4 * s.cfg.nbWords) ≤ s.inLen.toNat ∧ s.inLen.toNat % (4 * s.cfg.nbWords) ≠ 0)) →
      exec .ecbDecrypt s = .next (closed .length s)) ∧
    (∀ k c, 2 ≤ s.keyLen.toNat → s.keyLen.toNat ≤ 64 → s.inLen.toNat ≤ bufBytes →
      (s.inLen.toNat < 2 * (4 * s.cfg.nbWords) ∨ s.inLen.toNat % (4 * s.cfg.nbWords) = 0) → s.cfg.legal →
      s.mem.readBytes 0x100 s.keyLen.toNat = .ok k → s.mem.readBytes 0x10000 s.inLen.toNat = .ok c →
      ∃ t, exec .ecbDecrypt s = .next t ∧
        (s.inLen.toNat < 2 * (4 * s.cfg.nbWords) → t.outLen = s.inLen ∧
          t.mem.readBytes 0x20000 t.outLen.toNat = .ok c) ∧
        t.outLen.toNat = (ecbDecrypt s.cfg k c).length ∧
        t.mem.readBytes 0x20000 t.outLen.toNat = .ok (ecbDecrypt s.cfg k c) ∧
        readSchedule .a t = .ok (expand s.cfg (k.take (s.keyLen.toNat / 2)) true) ∧
        readSchedule .b t = .ok (expand s.cfg (k.drop (s.keyLen.toNat / 2)) false) ∧
        t = closed .ok { s with mem := t.mem, outLen := t.outLen, status := bothValid s.status } ∧
        sameOutside (fun a => inSchedules a ∨ inMsgOut a) s t)

/-- Ciphertext block j is the encryption of block j of the padded message alone (44_ecb_frame.md R243, R248). For two or
more whole blocks of ciphertext, decrypted block j is the decryption of ciphertext block j alone, and what is left of
them ends missing bytes before the last block, missing being that block's first byte modulo T (R244). -/
def Obligations.BlocksAreIndependent : Prop :=
  ∀ (c : Cfg) (k : List Byte), c.legal → k ≠ [] →
    let t := 4 * c.nbWords
    let wA := expand c (k.take (k.length / 2)) true
    let wB := expand c (k.drop (k.length / 2)) false
    (∀ p : List Byte,
      (ecbEncrypt c k p).length = (padMessage p t).length ∧
      ∀ j, j < (padMessage p t).length / t →
        ((ecbEncrypt c k p).drop (j * t)).take t =
          encryptBlock (((padMessage p t).drop (j * t)).take t) wA wB c.nbWords c.nr.toNat) ∧
    (∀ m : List Byte, 2 * t ≤ m.length → m.length % t = 0 →
      let n := m.length / t
      let d := fun j => decryptBlock ((m.drop (j * t)).take t) wA wB c.nbWords c.nr.toNat
      (ecbDecrypt c k m).length = (n - 1) * t - ((d (n - 1)).getD 0 0).toNat % t ∧
      ∀ i, i < (ecbDecrypt c k m).length → (ecbDecrypt c k m)[i]? = (d (i / t))[i % t]?)

/-- Round trip at the machine: the ciphertext of ECB_ENCRYPT, copied to MSG_IN under the same key and CFG, decrypts to
the message, for every message of 1 to BUF_BYTES - T bytes; a longer one has a ciphertext of BUF_BYTES + T bytes, which
ECB_DECRYPT turns away with ERR_LENGTH (44_ecb_frame.md R242, R250, R251; that R251's bound BUF_BYTES - 1 is too wide
is log 25). -/
def Obligations.EcbRoundTrip : Prop :=
  ∀ s t u : State, exec .ecbEncrypt s = .next t → t.status.err = .ok → 1 ≤ s.inLen.toNat →
    u.cfg = s.cfg → u.keyLen = s.keyLen → u.inLen = t.outLen →
    (∀ a, a < s.keyLen.toNat → u.mem.byteAt (0x100 + a) = s.mem.byteAt (0x100 + a)) →
    (s.inLen.toNat ≤ bufBytes - 4 * s.cfg.nbWords →
      (∀ a, a < t.outLen.toNat → u.mem.byteAt (0x10000 + a) = t.mem.byteAt (0x20000 + a)) →
      ∃ v, exec .ecbDecrypt u = .next v ∧ v.status.err = .ok ∧ v.outLen = s.inLen ∧
        ∀ a, a < s.inLen.toNat → v.mem.byteAt (0x20000 + a) = s.mem.byteAt (0x10000 + a)) ∧
    (bufBytes - 4 * s.cfg.nbWords < s.inLen.toNat →
      t.outLen.toNat = bufBytes + 4 * s.cfg.nbWords ∧ exec .ecbDecrypt u = .next (closed .length u))

/-- The empty message: one block of ciphertext, which decryption passes through, so the round trip does not hold for
it (44_ecb_frame.md R252, 90_conflicts.md C1). -/
def Obligations.EmptyMessagePassesThrough : Prop :=
  ∀ (c : Cfg) (k : List Byte), c.legal → k ≠ [] →
    (ecbEncrypt c k []).length = 4 * c.nbWords ∧
    ecbEncrypt c k [] = encryptBlock (List.replicate (4 * c.nbWords) 0) (expand c (k.take (k.length / 2)) true)
      (expand c (k.drop (k.length / 2)) false) c.nbWords c.nr.toNat ∧
    ecbDecrypt c k (ecbEncrypt c k []) = ecbEncrypt c k []

/-! The host bus. -/

/-- A misaligned access, or one to a reserved offset, read or write, is a fault of the host, also while BUSY = 1
(20_memory.md R74 to R76). -/
def Obligations.BusErrorsAreHostFaults : Prop :=
  ∀ (s : State) (off : BitVec 18) (v : Word) (rest : List HostMove), hostTurn s →
    (s.host = .write off v :: rest ∨ s.host = .read off :: rest) →
    (off.toNat % 4 ≠ 0 → step s = .fault (.busMisaligned off.toNat)) ∧
    (off.toNat % 4 = 0 → reservedOffset off.toNat → step s = .fault (.busReserved off.toNat))

/-- The address map: an aligned offset is reserved, or a register's, or in a window, and only one of these
(10_state.md R20, 20_memory.md R76). -/
def Obligations.AddressMapIsTotal : Prop :=
  ∀ off : Nat, off < 2 ^ 18 → off % 4 = 0 →
    (busTarget off = .error (.busReserved off) ↔ reservedOffset off) ∧
    (∀ r : Reg, busTarget off = .ok (.reg r) ↔ r.offset = off) ∧
    (∀ w : Window, busTarget off = .ok (.window w) ↔ w.base ≤ off ∧ off < w.base + w.size)

/-- While BUSY = 1 a host write to anything but STATUS and CTRL is dropped and sets BUSY_VIOL; a write to CTRL takes
effect (20_memory.md R84). -/
def Obligations.BusyWritesAreDropped : Prop :=
  ∀ (s : State) (off : BitVec 18) (v : Word) (rest : List HostMove), hostTurn s → s.status.busy = true →
    s.host = .write off v :: rest → off.toNat % 4 = 0 →
    (¬ reservedOffset off.toNat → off ≠ 0x008 → off ≠ 0x00C →
      step s = .next { movedOn s rest with status := { s.status with busyViol := true } }) ∧
    (off = 0x00C → step s = .next { movedOn s rest with ie := v.getLsbD 0 }) ∧
    (off = 0x008 → step s = .next
      { movedOn s rest with
        status := { s.status with
          done := s.status.done && !v.getLsbD 1
          errSticky := s.status.errSticky && !v.getLsbD 16
          busyViol := s.status.busyViol && !v.getLsbD 17 } }) ∧
    (reservedOffset off.toNat → step s = .fault (.busReserved off.toNat))

/-- While BUSY = 1 a host read of ID, STATUS or CTRL is current; any other that is not reserved completes with a draw
and no other effect (20_memory.md R81). Nothing is said of the drawn value (log 5). -/
def Obligations.BusyReadsAreDraws : Prop :=
  ∀ (s : State) (off : BitVec 18) (rest : List HostMove), hostTurn s → s.status.busy = true →
    s.host = .read off :: rest → off.toNat % 4 = 0 →
    (off = 0x000 → step s = .next { movedOn s rest with rdata := some 0x524A0007 }) ∧
    (off = 0x008 → step s = .next { movedOn s rest with rdata := some s.status.word }) ∧
    (off = 0x00C → step s = .next { movedOn s rest with rdata := some (if s.ie then 1 else 0) }) ∧
    (¬ reservedOffset off.toNat → off ≠ 0x000 → off ≠ 0x008 → off ≠ 0x00C →
      ∃ v, step s = .next { movedOn s rest with rdata := some v, draws := s.draws + 1 })

/-- STATUS as a word: its fields, its reserved bits 0, and a write that clears exactly the bits 1, 16 and 17 written
as 1, at any time (10_state.md R24). -/
def Obligations.StatusFieldsAndClears : Prop :=
  (∀ t : Status,
    t.word.getLsbD 0 = t.busy ∧ t.word.getLsbD 1 = t.done ∧ t.word.extractLsb' 2 2 = 0 ∧
    t.word.extractLsb' 4 4 = t.err.code ∧ t.word.getLsbD 8 = t.ksaValid ∧ t.word.getLsbD 9 = t.ksbValid ∧
    t.word.extractLsb' 10 6 = 0 ∧ t.word.getLsbD 16 = t.errSticky ∧ t.word.getLsbD 17 = t.busyViol ∧
    t.word.extractLsb' 18 14 = 0) ∧
  (∀ (s : State) (v : Word) (rest : List HostMove), hostTurn s → s.host = .write 0x008 v :: rest →
    ∃ t, step s = .next t ∧ t.status.word = s.status.word &&& ~~~(v &&& 0x00030002) ∧
      t = { movedOn s rest with status := t.status })

/-- A host write to STATE, KEY_BUF or MSG_IN while BUSY = 0 stores the word's 4 bytes, [7:0] lowest, and nothing else;
a host read of a written word of any window returns its 4 bytes likewise, the schedules' included (20_memory.md R71). -/
def Obligations.WindowAccessesAreLittleEndian : Prop :=
  ∀ (s : State) (off : BitVec 18) (v : Word) (rest : List HostMove), s.pending = none → s.status.busy = false →
    off.toNat % 4 = 0 →
    (s.host = .write off v :: rest →
      (inRange 0x040 32 off.toNat ∨ inRange 0x100 64 off.toNat ∨ inRange 0x10000 bufBytes off.toNat) →
      ∃ t, step s = .next t ∧
        (∀ b, b < 4 → t.mem.byteAt (off.toNat + b) = some (v.extractLsb' (8 * b) 8)) ∧
        sameOutside (inRange off.toNat 4) s t ∧ t = { movedOn s rest with mem := t.mem }) ∧
    (s.host = .read off :: rest →
      (inRange 0x040 32 off.toNat ∨ inRange 0x100 64 off.toNat ∨ inRange 0x10000 bufBytes off.toNat ∨
        inRange 0x200 480 off.toNat ∨ inRange 0x400 480 off.toNat ∨ inRange 0x20000 outBytes off.toNat) →
      (∀ b, b < 4 → s.mem.byteAt (off.toNat + b) = some (v.extractLsb' (8 * b) 8)) →
      step s = .next { movedOn s rest with rdata := some v })

/-- A host write to the read-write registers stores and reads back; CTRL keeps bit 0 only; writes to read-only
locations change nothing; ID and CMD read constants (10_state.md R22, R23, R26 to R30, R34, R35; 20_memory.md R77). -/
def Obligations.RegisterWritesAndReads : Prop :=
  ∀ (s : State) (v : Word) (rest : List HostMove), s.pending = none → s.status.busy = false →
    (s.host = .write 0x00C v :: rest → step s = .next { movedOn s rest with ie := v.getLsbD 0 }) ∧
    (s.host = .write 0x010 v :: rest → step s = .next { movedOn s rest with cfgReq := v }) ∧
    (s.host = .write 0x018 v :: rest → step s = .next { movedOn s rest with opa := v }) ∧
    (s.host = .write 0x01C v :: rest → step s = .next { movedOn s rest with opb := v }) ∧
    (s.host = .write 0x020 v :: rest → step s = .next { movedOn s rest with opm := v }) ∧
    (s.host = .write 0x030 v :: rest → step s = .next { movedOn s rest with keyLen := v }) ∧
    (s.host = .write 0x034 v :: rest → step s = .next { movedOn s rest with inLen := v }) ∧
    (∀ off : BitVec 18, s.host = .write off v :: rest →
      (off = 0x000 ∨ off = 0x014 ∨ off = 0x024 ∨ off = 0x028 ∨ off = 0x02C ∨ off = 0x038 ∨ off = 0x03C ∨
        (off.toNat % 4 = 0 ∧
          (inRange 0x200 480 off.toNat ∨ inRange 0x400 480 off.toNat ∨ inRange 0x20000 outBytes off.toNat))) →
      step s = .next (movedOn s rest)) ∧
    (∀ p ∈ [((0x000 : BitVec 18), (0x524A0007 : Word)), (0x004, 0), (0x008, s.status.word),
        (0x00C, if s.ie then 1 else 0), (0x010, s.cfgReq), (0x014, s.cfg.word), (0x018, s.opa), (0x01C, s.opb)] ++
        [(0x020, s.opm), (0x024, s.res0), (0x028, s.res1), (0x02C, s.res2), (0x030, s.keyLen), (0x034, s.inLen),
        (0x038, s.outLen), (0x03C, s.elapsed)],
      s.host = .read p.1 :: rest → step s = .next { movedOn s rest with rdata := some p.2 })

/-- No host read has a side effect: only the data returned changes, and twice the same read gives twice the same
while nothing is pending (20_memory.md R78). R78 excepts ELAPSED from the second; that a repeated read of ELAPSED (0x03C)
agrees too is the model's choice, log 4. -/
def Obligations.HostReadsHaveNoSideEffect : Prop :=
  ∀ (s t : State) (off : BitVec 18) (rest : List HostMove), hostTurn s → s.host = .read off :: rest →
    step s = .next t →
    (∃ v d, t = { movedOn s rest with rdata := some v, draws := d }) ∧
    (s.pending = none → s.status.busy = false → hostRead off.toNat t = .next t)

/-- A byte nothing has written since reset: a host read that meets one is a fault, and so is every command that reads
one, once its checks have passed (20_memory.md R90). A command gives such a byte a value only where it writes a result:
the schedule words it expands and MSG_OUT below OUT_LEN (10_state.md R44, R46; log 7, log 8). -/
def Obligations.UnwrittenBytesFault : Prop :=
  (∀ (s : State) (off : BitVec 18) (rest : List HostMove) (b : Nat), s.pending = none → s.status.busy = false →
    s.host = .read off :: rest → off.toNat % 4 = 0 →
    (∃ w : Window, w.base ≤ off.toNat ∧ off.toNat < w.base + w.size) → b < 4 →
    s.mem.byteAt (off.toNat + b) = none → ∃ a, step s = .fault (.unwrittenByte a)) ∧
  (∀ (s : State) (a : Nat) (i : Instr), errorOf i s = .ok → s.mem.byteAt a = none →
    ((i ∈ layerCommands.map (fun p => p.2.1) ∨ i = .encryptBlock ∨ i = .decryptBlock ∨
        ∃ sel rnd, i = .addRoundKey sel rnd) ∧ inRange 0x040 (4 * s.cfg.nbWords) a ∨
      ((∃ rnd, i = .addRoundKey .a rnd) ∨ i = .encryptBlock ∨ i = .decryptBlock) ∧
        inRange 0x200 (4 * s.cfg.schedLen) a ∨
      ((∃ rnd, i = .addRoundKey .b rnd) ∨ i = .encryptBlock ∨ i = .decryptBlock) ∧
        inRange 0x400 (4 * s.cfg.schedLen) a ∨
      (i = .keyExpand ∨ i = .keyExpandRot ∨ i = .keyExpandNorot ∨ i = .ecbEncrypt ∨ i = .ecbDecrypt) ∧
        inRange 0x100 s.keyLen.toNat a ∨
      (i = .pad ∨ i = .ecbEncrypt ∨ i = .ecbDecrypt) ∧ inRange 0x10000 s.inLen.toNat a) →
    ∃ x, exec i s = .fault (.unwrittenByte x)) ∧
  (∀ (i : Instr) (s t : State) (a : Nat), exec i s = .next t → s.mem.byteAt a = none →
    ¬ inRange 0x200 (4 * s.cfg.schedLen) a → ¬ inRange 0x400 (4 * s.cfg.schedLen) a →
    ¬ inRange 0x20000 t.outLen.toNat a → t.mem.byteAt a = none)

/-! Reset, liveness and invariants. -/

/-- The reset values, the spec's own, and no byte of any window holds a value (70_reset_and_hazards.md R340, R342). -/
def Obligations.ResetValues : Prop :=
  let s := State.reset
  s.regWord .id = 0x524A0007 ∧ s.status.word = 0 ∧ s.regWord .ctrl = 0 ∧ s.cfgReq = 0 ∧ s.cfg.word = 0x00000A44 ∧
  s.cfg.nbWords = 4 ∧ s.cfg.nkWords = 4 ∧ s.cfg.nr = 10 ∧ s.opa = 0 ∧ s.opb = 0 ∧ s.opm = 0 ∧ s.res0 = 0 ∧
  s.res1 = 0 ∧ s.res2 = 0 ∧ s.keyLen = 0 ∧ s.inLen = 0 ∧ s.outLen = 0 ∧ s.elapsed = 0 ∧ s.pending = none ∧
  s.irq = false ∧ ∀ a, s.mem.byteAt a = none

/-- Reset aborts a pending command: none of its writes take effect and every register has its reset value, whatever
the state was (70_reset_and_hazards.md R341). The host's own fields stay (log 12). -/
def Obligations.ResetAbortsThePendingCommand : Prop :=
  ∀ (s : State) (rest : List HostMove), hostTurn s → s.host = .reset :: rest →
    step s = .next { State.reset with host := rest, rdata := s.rdata, draws := s.draws }

/-- A pending command completes after finitely many host moves: within its delay the run stops at a fault, or the
command is gone (a reset), or it is the sequencer's turn to complete it (70_reset_and_hazards.md R351; log 10). -/
def Obligations.PendingCommandCompletes : Prop :=
  ∀ (s : State) (w : Word), s.pending = some w → s.status.busy = true →
    ∃ n, n ≤ s.delay ∧
      ((∃ f, Host.Core.run core (n + 1) s = .fault f) ∨
       (∃ u : State, Host.Core.run core n s = .next u ∧ (u.pending = none ∨ u.sequencerWord = some w)))

/-- WAIT leaves its loop: a host that polls STATUS sees the command complete after exactly delay polls, nothing else
having changed, and once BUSY = 0 the next poll ends the wait (30_encoding.md R109, 70_reset_and_hazards.md R351). -/
def Obligations.WaitLeavesItsLoop : Prop :=
  (∀ (s : State) (w : Word) (rest : List HostMove), s.pending = some w → s.status.busy = true →
    s.host = .poll :: rest →
    ∃ r, Host.Core.run core s.delay s = .next { s with delay := 0, rdata := r } ∧
      step { s with delay := 0, rdata := r } = runCommand w { s with delay := 0, rdata := r }) ∧
  (∀ (s : State) (rest : List HostMove), s.pending = none → s.status.busy = false → s.host = .poll :: rest →
    step s = .next { movedOn s rest with rdata := some s.status.word })

/-- The reset state has the form every step keeps. -/
def Obligations.ResetIsWellFormed : Prop := State.reset.WellFormed ∧ State.reset.SchedulesValid

/-- Every step keeps the form of the state: canonical memory inside the windows, a legal CFG, BUSY exactly while a
command is pending, no DONE while BUSY (10_state.md R20, R24, R25; 60_exceptions.md R300, R301). -/
def Obligations.StepKeepsForm : Prop := ∀ s t : State, s.WellFormed → step s = .next t → t.WellFormed

/-- Every step keeps the meaning of the validity bits: a valid schedule is an expansion of some key under the current
CFG (10_state.md R43). -/
def Obligations.StepKeepsValidSchedules : Prop :=
  ∀ s t : State, s.WellFormed → s.SchedulesValid → step s = .next t → t.SchedulesValid

/-- With valid schedules and a written block, the block commands always run, whatever made the schedules
(43_block_transform.md R214, R224): the two invariants and the written columns are all they need. -/
def Obligations.ValidSchedulesSuffice : Prop :=
  ∀ s : State, s.SchedulesValid → s.status.ksaValid = true → s.status.ksbValid = true →
    (∀ a, a < 4 * s.cfg.nbWords → (s.mem.byteAt (0x040 + a)).isSome = true) →
    (∃ t, exec .encryptBlock s = .next t ∧ t.status.err = .ok) ∧
    (∃ t, exec .decryptBlock s = .next t ∧ t.status.err = .ok) ∧
    (∀ sel rnd, rnd ≤ s.cfg.nr.toNat → ∃ t, exec (.addRoundKey sel rnd) s = .next t ∧ t.status.err = .ok)
end

