-- ==== Sys2Proof/Laws/State.lean ====
section
/-! SUPPORT. One lemma per field per named update of the state, so that no proof unfolds a record update. -/

namespace Sys2Proof.Machine

/-! setRes0 -/

@[simp] theorem setRes0_status (s : State) (v : Word) : (s.setRes0 v).status = s.status := rfl
@[simp] theorem setRes0_ie (s : State) (v : Word) : (s.setRes0 v).ie = s.ie := rfl
@[simp] theorem setRes0_cfgReq (s : State) (v : Word) : (s.setRes0 v).cfgReq = s.cfgReq := rfl
@[simp] theorem setRes0_cfg (s : State) (v : Word) : (s.setRes0 v).cfg = s.cfg := rfl
@[simp] theorem setRes0_opa (s : State) (v : Word) : (s.setRes0 v).opa = s.opa := rfl
@[simp] theorem setRes0_opb (s : State) (v : Word) : (s.setRes0 v).opb = s.opb := rfl
@[simp] theorem setRes0_opm (s : State) (v : Word) : (s.setRes0 v).opm = s.opm := rfl
@[simp] theorem setRes0_res0 (s : State) (v : Word) : (s.setRes0 v).res0 = v := rfl
@[simp] theorem setRes0_res1 (s : State) (v : Word) : (s.setRes0 v).res1 = s.res1 := rfl
@[simp] theorem setRes0_res2 (s : State) (v : Word) : (s.setRes0 v).res2 = s.res2 := rfl
@[simp] theorem setRes0_keyLen (s : State) (v : Word) : (s.setRes0 v).keyLen = s.keyLen := rfl
@[simp] theorem setRes0_inLen (s : State) (v : Word) : (s.setRes0 v).inLen = s.inLen := rfl
@[simp] theorem setRes0_outLen (s : State) (v : Word) : (s.setRes0 v).outLen = s.outLen := rfl
@[simp] theorem setRes0_elapsed (s : State) (v : Word) : (s.setRes0 v).elapsed = s.elapsed := rfl
@[simp] theorem setRes0_mem (s : State) (v : Word) : (s.setRes0 v).mem = s.mem := rfl
@[simp] theorem setRes0_pending (s : State) (v : Word) : (s.setRes0 v).pending = s.pending := rfl
@[simp] theorem setRes0_host (s : State) (v : Word) : (s.setRes0 v).host = s.host := rfl
@[simp] theorem setRes0_rdata (s : State) (v : Word) : (s.setRes0 v).rdata = s.rdata := rfl
@[simp] theorem setRes0_delay (s : State) (v : Word) : (s.setRes0 v).delay = s.delay := rfl
@[simp] theorem setRes0_draws (s : State) (v : Word) : (s.setRes0 v).draws = s.draws := rfl

/-! setRes1 -/

@[simp] theorem setRes1_status (s : State) (v : Word) : (s.setRes1 v).status = s.status := rfl
@[simp] theorem setRes1_ie (s : State) (v : Word) : (s.setRes1 v).ie = s.ie := rfl
@[simp] theorem setRes1_cfgReq (s : State) (v : Word) : (s.setRes1 v).cfgReq = s.cfgReq := rfl
@[simp] theorem setRes1_cfg (s : State) (v : Word) : (s.setRes1 v).cfg = s.cfg := rfl
@[simp] theorem setRes1_opa (s : State) (v : Word) : (s.setRes1 v).opa = s.opa := rfl
@[simp] theorem setRes1_opb (s : State) (v : Word) : (s.setRes1 v).opb = s.opb := rfl
@[simp] theorem setRes1_opm (s : State) (v : Word) : (s.setRes1 v).opm = s.opm := rfl
@[simp] theorem setRes1_res0 (s : State) (v : Word) : (s.setRes1 v).res0 = s.res0 := rfl
@[simp] theorem setRes1_res1 (s : State) (v : Word) : (s.setRes1 v).res1 = v := rfl
@[simp] theorem setRes1_res2 (s : State) (v : Word) : (s.setRes1 v).res2 = s.res2 := rfl
@[simp] theorem setRes1_keyLen (s : State) (v : Word) : (s.setRes1 v).keyLen = s.keyLen := rfl
@[simp] theorem setRes1_inLen (s : State) (v : Word) : (s.setRes1 v).inLen = s.inLen := rfl
@[simp] theorem setRes1_outLen (s : State) (v : Word) : (s.setRes1 v).outLen = s.outLen := rfl
@[simp] theorem setRes1_elapsed (s : State) (v : Word) : (s.setRes1 v).elapsed = s.elapsed := rfl
@[simp] theorem setRes1_mem (s : State) (v : Word) : (s.setRes1 v).mem = s.mem := rfl
@[simp] theorem setRes1_pending (s : State) (v : Word) : (s.setRes1 v).pending = s.pending := rfl
@[simp] theorem setRes1_host (s : State) (v : Word) : (s.setRes1 v).host = s.host := rfl
@[simp] theorem setRes1_rdata (s : State) (v : Word) : (s.setRes1 v).rdata = s.rdata := rfl
@[simp] theorem setRes1_delay (s : State) (v : Word) : (s.setRes1 v).delay = s.delay := rfl
@[simp] theorem setRes1_draws (s : State) (v : Word) : (s.setRes1 v).draws = s.draws := rfl

/-! setRes2 -/

@[simp] theorem setRes2_status (s : State) (v : Word) : (s.setRes2 v).status = s.status := rfl
@[simp] theorem setRes2_ie (s : State) (v : Word) : (s.setRes2 v).ie = s.ie := rfl
@[simp] theorem setRes2_cfgReq (s : State) (v : Word) : (s.setRes2 v).cfgReq = s.cfgReq := rfl
@[simp] theorem setRes2_cfg (s : State) (v : Word) : (s.setRes2 v).cfg = s.cfg := rfl
@[simp] theorem setRes2_opa (s : State) (v : Word) : (s.setRes2 v).opa = s.opa := rfl
@[simp] theorem setRes2_opb (s : State) (v : Word) : (s.setRes2 v).opb = s.opb := rfl
@[simp] theorem setRes2_opm (s : State) (v : Word) : (s.setRes2 v).opm = s.opm := rfl
@[simp] theorem setRes2_res0 (s : State) (v : Word) : (s.setRes2 v).res0 = s.res0 := rfl
@[simp] theorem setRes2_res1 (s : State) (v : Word) : (s.setRes2 v).res1 = s.res1 := rfl
@[simp] theorem setRes2_res2 (s : State) (v : Word) : (s.setRes2 v).res2 = v := rfl
@[simp] theorem setRes2_keyLen (s : State) (v : Word) : (s.setRes2 v).keyLen = s.keyLen := rfl
@[simp] theorem setRes2_inLen (s : State) (v : Word) : (s.setRes2 v).inLen = s.inLen := rfl
@[simp] theorem setRes2_outLen (s : State) (v : Word) : (s.setRes2 v).outLen = s.outLen := rfl
@[simp] theorem setRes2_elapsed (s : State) (v : Word) : (s.setRes2 v).elapsed = s.elapsed := rfl
@[simp] theorem setRes2_mem (s : State) (v : Word) : (s.setRes2 v).mem = s.mem := rfl
@[simp] theorem setRes2_pending (s : State) (v : Word) : (s.setRes2 v).pending = s.pending := rfl
@[simp] theorem setRes2_host (s : State) (v : Word) : (s.setRes2 v).host = s.host := rfl
@[simp] theorem setRes2_rdata (s : State) (v : Word) : (s.setRes2 v).rdata = s.rdata := rfl
@[simp] theorem setRes2_delay (s : State) (v : Word) : (s.setRes2 v).delay = s.delay := rfl
@[simp] theorem setRes2_draws (s : State) (v : Word) : (s.setRes2 v).draws = s.draws := rfl

/-! setOutLen -/

@[simp] theorem setOutLen_status (s : State) (n : Nat) : (s.setOutLen n).status = s.status := rfl
@[simp] theorem setOutLen_ie (s : State) (n : Nat) : (s.setOutLen n).ie = s.ie := rfl
@[simp] theorem setOutLen_cfgReq (s : State) (n : Nat) : (s.setOutLen n).cfgReq = s.cfgReq := rfl
@[simp] theorem setOutLen_cfg (s : State) (n : Nat) : (s.setOutLen n).cfg = s.cfg := rfl
@[simp] theorem setOutLen_opa (s : State) (n : Nat) : (s.setOutLen n).opa = s.opa := rfl
@[simp] theorem setOutLen_opb (s : State) (n : Nat) : (s.setOutLen n).opb = s.opb := rfl
@[simp] theorem setOutLen_opm (s : State) (n : Nat) : (s.setOutLen n).opm = s.opm := rfl
@[simp] theorem setOutLen_res0 (s : State) (n : Nat) : (s.setOutLen n).res0 = s.res0 := rfl
@[simp] theorem setOutLen_res1 (s : State) (n : Nat) : (s.setOutLen n).res1 = s.res1 := rfl
@[simp] theorem setOutLen_res2 (s : State) (n : Nat) : (s.setOutLen n).res2 = s.res2 := rfl
@[simp] theorem setOutLen_keyLen (s : State) (n : Nat) : (s.setOutLen n).keyLen = s.keyLen := rfl
@[simp] theorem setOutLen_inLen (s : State) (n : Nat) : (s.setOutLen n).inLen = s.inLen := rfl
@[simp] theorem setOutLen_outLen (s : State) (n : Nat) : (s.setOutLen n).outLen = BitVec.ofNat 32 n := rfl
@[simp] theorem setOutLen_elapsed (s : State) (n : Nat) : (s.setOutLen n).elapsed = s.elapsed := rfl
@[simp] theorem setOutLen_mem (s : State) (n : Nat) : (s.setOutLen n).mem = s.mem := rfl
@[simp] theorem setOutLen_pending (s : State) (n : Nat) : (s.setOutLen n).pending = s.pending := rfl
@[simp] theorem setOutLen_host (s : State) (n : Nat) : (s.setOutLen n).host = s.host := rfl
@[simp] theorem setOutLen_rdata (s : State) (n : Nat) : (s.setOutLen n).rdata = s.rdata := rfl
@[simp] theorem setOutLen_delay (s : State) (n : Nat) : (s.setOutLen n).delay = s.delay := rfl
@[simp] theorem setOutLen_draws (s : State) (n : Nat) : (s.setOutLen n).draws = s.draws := rfl

/-! setMem -/

@[simp] theorem setMem_status (s : State) (m : Memory) : (s.setMem m).status = s.status := rfl
@[simp] theorem setMem_ie (s : State) (m : Memory) : (s.setMem m).ie = s.ie := rfl
@[simp] theorem setMem_cfgReq (s : State) (m : Memory) : (s.setMem m).cfgReq = s.cfgReq := rfl
@[simp] theorem setMem_cfg (s : State) (m : Memory) : (s.setMem m).cfg = s.cfg := rfl
@[simp] theorem setMem_opa (s : State) (m : Memory) : (s.setMem m).opa = s.opa := rfl
@[simp] theorem setMem_opb (s : State) (m : Memory) : (s.setMem m).opb = s.opb := rfl
@[simp] theorem setMem_opm (s : State) (m : Memory) : (s.setMem m).opm = s.opm := rfl
@[simp] theorem setMem_res0 (s : State) (m : Memory) : (s.setMem m).res0 = s.res0 := rfl
@[simp] theorem setMem_res1 (s : State) (m : Memory) : (s.setMem m).res1 = s.res1 := rfl
@[simp] theorem setMem_res2 (s : State) (m : Memory) : (s.setMem m).res2 = s.res2 := rfl
@[simp] theorem setMem_keyLen (s : State) (m : Memory) : (s.setMem m).keyLen = s.keyLen := rfl
@[simp] theorem setMem_inLen (s : State) (m : Memory) : (s.setMem m).inLen = s.inLen := rfl
@[simp] theorem setMem_outLen (s : State) (m : Memory) : (s.setMem m).outLen = s.outLen := rfl
@[simp] theorem setMem_elapsed (s : State) (m : Memory) : (s.setMem m).elapsed = s.elapsed := rfl
@[simp] theorem setMem_mem (s : State) (m : Memory) : (s.setMem m).mem = m := rfl
@[simp] theorem setMem_pending (s : State) (m : Memory) : (s.setMem m).pending = s.pending := rfl
@[simp] theorem setMem_host (s : State) (m : Memory) : (s.setMem m).host = s.host := rfl
@[simp] theorem setMem_rdata (s : State) (m : Memory) : (s.setMem m).rdata = s.rdata := rfl
@[simp] theorem setMem_delay (s : State) (m : Memory) : (s.setMem m).delay = s.delay := rfl
@[simp] theorem setMem_draws (s : State) (m : Memory) : (s.setMem m).draws = s.draws := rfl

/-! setStatus -/

@[simp] theorem setStatus_status (s : State) (x : Status) : (s.setStatus x).status = x := rfl
@[simp] theorem setStatus_ie (s : State) (x : Status) : (s.setStatus x).ie = s.ie := rfl
@[simp] theorem setStatus_cfgReq (s : State) (x : Status) : (s.setStatus x).cfgReq = s.cfgReq := rfl
@[simp] theorem setStatus_cfg (s : State) (x : Status) : (s.setStatus x).cfg = s.cfg := rfl
@[simp] theorem setStatus_opa (s : State) (x : Status) : (s.setStatus x).opa = s.opa := rfl
@[simp] theorem setStatus_opb (s : State) (x : Status) : (s.setStatus x).opb = s.opb := rfl
@[simp] theorem setStatus_opm (s : State) (x : Status) : (s.setStatus x).opm = s.opm := rfl
@[simp] theorem setStatus_res0 (s : State) (x : Status) : (s.setStatus x).res0 = s.res0 := rfl
@[simp] theorem setStatus_res1 (s : State) (x : Status) : (s.setStatus x).res1 = s.res1 := rfl
@[simp] theorem setStatus_res2 (s : State) (x : Status) : (s.setStatus x).res2 = s.res2 := rfl
@[simp] theorem setStatus_keyLen (s : State) (x : Status) : (s.setStatus x).keyLen = s.keyLen := rfl
@[simp] theorem setStatus_inLen (s : State) (x : Status) : (s.setStatus x).inLen = s.inLen := rfl
@[simp] theorem setStatus_outLen (s : State) (x : Status) : (s.setStatus x).outLen = s.outLen := rfl
@[simp] theorem setStatus_elapsed (s : State) (x : Status) : (s.setStatus x).elapsed = s.elapsed := rfl
@[simp] theorem setStatus_mem (s : State) (x : Status) : (s.setStatus x).mem = s.mem := rfl
@[simp] theorem setStatus_pending (s : State) (x : Status) : (s.setStatus x).pending = s.pending := rfl
@[simp] theorem setStatus_host (s : State) (x : Status) : (s.setStatus x).host = s.host := rfl
@[simp] theorem setStatus_rdata (s : State) (x : Status) : (s.setStatus x).rdata = s.rdata := rfl
@[simp] theorem setStatus_delay (s : State) (x : Status) : (s.setStatus x).delay = s.delay := rfl
@[simp] theorem setStatus_draws (s : State) (x : Status) : (s.setStatus x).draws = s.draws := rfl

/-! setCfg -/

@[simp] theorem setCfg_status (s : State) (c : Cfg) : (s.setCfg c).status = s.status := rfl
@[simp] theorem setCfg_ie (s : State) (c : Cfg) : (s.setCfg c).ie = s.ie := rfl
@[simp] theorem setCfg_cfgReq (s : State) (c : Cfg) : (s.setCfg c).cfgReq = s.cfgReq := rfl
@[simp] theorem setCfg_cfg (s : State) (c : Cfg) : (s.setCfg c).cfg = c := rfl
@[simp] theorem setCfg_opa (s : State) (c : Cfg) : (s.setCfg c).opa = s.opa := rfl
@[simp] theorem setCfg_opb (s : State) (c : Cfg) : (s.setCfg c).opb = s.opb := rfl
@[simp] theorem setCfg_opm (s : State) (c : Cfg) : (s.setCfg c).opm = s.opm := rfl
@[simp] theorem setCfg_res0 (s : State) (c : Cfg) : (s.setCfg c).res0 = s.res0 := rfl
@[simp] theorem setCfg_res1 (s : State) (c : Cfg) : (s.setCfg c).res1 = s.res1 := rfl
@[simp] theorem setCfg_res2 (s : State) (c : Cfg) : (s.setCfg c).res2 = s.res2 := rfl
@[simp] theorem setCfg_keyLen (s : State) (c : Cfg) : (s.setCfg c).keyLen = s.keyLen := rfl
@[simp] theorem setCfg_inLen (s : State) (c : Cfg) : (s.setCfg c).inLen = s.inLen := rfl
@[simp] theorem setCfg_outLen (s : State) (c : Cfg) : (s.setCfg c).outLen = s.outLen := rfl
@[simp] theorem setCfg_elapsed (s : State) (c : Cfg) : (s.setCfg c).elapsed = s.elapsed := rfl
@[simp] theorem setCfg_mem (s : State) (c : Cfg) : (s.setCfg c).mem = s.mem := rfl
@[simp] theorem setCfg_pending (s : State) (c : Cfg) : (s.setCfg c).pending = s.pending := rfl
@[simp] theorem setCfg_host (s : State) (c : Cfg) : (s.setCfg c).host = s.host := rfl
@[simp] theorem setCfg_rdata (s : State) (c : Cfg) : (s.setCfg c).rdata = s.rdata := rfl
@[simp] theorem setCfg_delay (s : State) (c : Cfg) : (s.setCfg c).delay = s.delay := rfl
@[simp] theorem setCfg_draws (s : State) (c : Cfg) : (s.setCfg c).draws = s.draws := rfl

/-! finish -/

@[simp] theorem finish_status (s : State) (e : ErrCode) : (s.finish e).status = s.status.completed e := rfl
@[simp] theorem finish_ie (s : State) (e : ErrCode) : (s.finish e).ie = s.ie := rfl
@[simp] theorem finish_cfgReq (s : State) (e : ErrCode) : (s.finish e).cfgReq = s.cfgReq := rfl
@[simp] theorem finish_cfg (s : State) (e : ErrCode) : (s.finish e).cfg = s.cfg := rfl
@[simp] theorem finish_opa (s : State) (e : ErrCode) : (s.finish e).opa = s.opa := rfl
@[simp] theorem finish_opb (s : State) (e : ErrCode) : (s.finish e).opb = s.opb := rfl
@[simp] theorem finish_opm (s : State) (e : ErrCode) : (s.finish e).opm = s.opm := rfl
@[simp] theorem finish_res0 (s : State) (e : ErrCode) : (s.finish e).res0 = s.res0 := rfl
@[simp] theorem finish_res1 (s : State) (e : ErrCode) : (s.finish e).res1 = s.res1 := rfl
@[simp] theorem finish_res2 (s : State) (e : ErrCode) : (s.finish e).res2 = s.res2 := rfl
@[simp] theorem finish_keyLen (s : State) (e : ErrCode) : (s.finish e).keyLen = s.keyLen := rfl
@[simp] theorem finish_inLen (s : State) (e : ErrCode) : (s.finish e).inLen = s.inLen := rfl
@[simp] theorem finish_outLen (s : State) (e : ErrCode) : (s.finish e).outLen = s.outLen := rfl
@[simp] theorem finish_elapsed (s : State) (e : ErrCode) : (s.finish e).elapsed = Config.elapsedFn s.draws := rfl
@[simp] theorem finish_mem (s : State) (e : ErrCode) : (s.finish e).mem = s.mem := rfl
@[simp] theorem finish_pending (s : State) (e : ErrCode) : (s.finish e).pending = none := rfl
@[simp] theorem finish_host (s : State) (e : ErrCode) : (s.finish e).host = s.host := rfl
@[simp] theorem finish_rdata (s : State) (e : ErrCode) : (s.finish e).rdata = s.rdata := rfl
@[simp] theorem finish_delay (s : State) (e : ErrCode) : (s.finish e).delay = 0 := rfl
@[simp] theorem finish_draws (s : State) (e : ErrCode) : (s.finish e).draws = s.draws + 1 := rfl

/-! loadPending -/

@[simp] theorem loadPending_status (s : State) (w : Word) (d : Nat) : (s.loadPending w d).status = s.status.accepted := rfl
@[simp] theorem loadPending_ie (s : State) (w : Word) (d : Nat) : (s.loadPending w d).ie = s.ie := rfl
@[simp] theorem loadPending_cfgReq (s : State) (w : Word) (d : Nat) : (s.loadPending w d).cfgReq = s.cfgReq := rfl
@[simp] theorem loadPending_cfg (s : State) (w : Word) (d : Nat) : (s.loadPending w d).cfg = s.cfg := rfl
@[simp] theorem loadPending_opa (s : State) (w : Word) (d : Nat) : (s.loadPending w d).opa = s.opa := rfl
@[simp] theorem loadPending_opb (s : State) (w : Word) (d : Nat) : (s.loadPending w d).opb = s.opb := rfl
@[simp] theorem loadPending_opm (s : State) (w : Word) (d : Nat) : (s.loadPending w d).opm = s.opm := rfl
@[simp] theorem loadPending_res0 (s : State) (w : Word) (d : Nat) : (s.loadPending w d).res0 = s.res0 := rfl
@[simp] theorem loadPending_res1 (s : State) (w : Word) (d : Nat) : (s.loadPending w d).res1 = s.res1 := rfl
@[simp] theorem loadPending_res2 (s : State) (w : Word) (d : Nat) : (s.loadPending w d).res2 = s.res2 := rfl
@[simp] theorem loadPending_keyLen (s : State) (w : Word) (d : Nat) : (s.loadPending w d).keyLen = s.keyLen := rfl
@[simp] theorem loadPending_inLen (s : State) (w : Word) (d : Nat) : (s.loadPending w d).inLen = s.inLen := rfl
@[simp] theorem loadPending_outLen (s : State) (w : Word) (d : Nat) : (s.loadPending w d).outLen = s.outLen := rfl
@[simp] theorem loadPending_elapsed (s : State) (w : Word) (d : Nat) : (s.loadPending w d).elapsed = s.elapsed := rfl
@[simp] theorem loadPending_mem (s : State) (w : Word) (d : Nat) : (s.loadPending w d).mem = s.mem := rfl
@[simp] theorem loadPending_pending (s : State) (w : Word) (d : Nat) : (s.loadPending w d).pending = some w := rfl
@[simp] theorem loadPending_host (s : State) (w : Word) (d : Nat) : (s.loadPending w d).host = s.host := rfl
@[simp] theorem loadPending_rdata (s : State) (w : Word) (d : Nat) : (s.loadPending w d).rdata = s.rdata := rfl
@[simp] theorem loadPending_delay (s : State) (w : Word) (d : Nat) : (s.loadPending w d).delay = d := rfl
@[simp] theorem loadPending_draws (s : State) (w : Word) (d : Nat) : (s.loadPending w d).draws = s.draws := rfl

/-! accept -/

@[simp] theorem accept_status (s : State) (w : Word) : (s.accept w).status = s.status.accepted := rfl
@[simp] theorem accept_ie (s : State) (w : Word) : (s.accept w).ie = s.ie := rfl
@[simp] theorem accept_cfgReq (s : State) (w : Word) : (s.accept w).cfgReq = s.cfgReq := rfl
@[simp] theorem accept_cfg (s : State) (w : Word) : (s.accept w).cfg = s.cfg := rfl
@[simp] theorem accept_opa (s : State) (w : Word) : (s.accept w).opa = s.opa := rfl
@[simp] theorem accept_opb (s : State) (w : Word) : (s.accept w).opb = s.opb := rfl
@[simp] theorem accept_opm (s : State) (w : Word) : (s.accept w).opm = s.opm := rfl
@[simp] theorem accept_res0 (s : State) (w : Word) : (s.accept w).res0 = s.res0 := rfl
@[simp] theorem accept_res1 (s : State) (w : Word) : (s.accept w).res1 = s.res1 := rfl
@[simp] theorem accept_res2 (s : State) (w : Word) : (s.accept w).res2 = s.res2 := rfl
@[simp] theorem accept_keyLen (s : State) (w : Word) : (s.accept w).keyLen = s.keyLen := rfl
@[simp] theorem accept_inLen (s : State) (w : Word) : (s.accept w).inLen = s.inLen := rfl
@[simp] theorem accept_outLen (s : State) (w : Word) : (s.accept w).outLen = s.outLen := rfl
@[simp] theorem accept_elapsed (s : State) (w : Word) : (s.accept w).elapsed = s.elapsed := rfl
@[simp] theorem accept_mem (s : State) (w : Word) : (s.accept w).mem = s.mem := rfl
@[simp] theorem accept_pending (s : State) (w : Word) : (s.accept w).pending = some w := rfl
@[simp] theorem accept_host (s : State) (w : Word) : (s.accept w).host = s.host := rfl
@[simp] theorem accept_rdata (s : State) (w : Word) : (s.accept w).rdata = s.rdata := rfl
@[simp] theorem accept_delay (s : State) (w : Word) : (s.accept w).delay = Config.completionDelay s.draws := rfl
@[simp] theorem accept_draws (s : State) (w : Word) : (s.accept w).draws = s.draws + 1 := rfl

/-! countMove -/

@[simp] theorem countMove_status (s : State) : s.countMove.status = s.status := rfl
@[simp] theorem countMove_ie (s : State) : s.countMove.ie = s.ie := rfl
@[simp] theorem countMove_cfgReq (s : State) : s.countMove.cfgReq = s.cfgReq := rfl
@[simp] theorem countMove_cfg (s : State) : s.countMove.cfg = s.cfg := rfl
@[simp] theorem countMove_opa (s : State) : s.countMove.opa = s.opa := rfl
@[simp] theorem countMove_opb (s : State) : s.countMove.opb = s.opb := rfl
@[simp] theorem countMove_opm (s : State) : s.countMove.opm = s.opm := rfl
@[simp] theorem countMove_res0 (s : State) : s.countMove.res0 = s.res0 := rfl
@[simp] theorem countMove_res1 (s : State) : s.countMove.res1 = s.res1 := rfl
@[simp] theorem countMove_res2 (s : State) : s.countMove.res2 = s.res2 := rfl
@[simp] theorem countMove_keyLen (s : State) : s.countMove.keyLen = s.keyLen := rfl
@[simp] theorem countMove_inLen (s : State) : s.countMove.inLen = s.inLen := rfl
@[simp] theorem countMove_outLen (s : State) : s.countMove.outLen = s.outLen := rfl
@[simp] theorem countMove_elapsed (s : State) : s.countMove.elapsed = s.elapsed := rfl
@[simp] theorem countMove_mem (s : State) : s.countMove.mem = s.mem := rfl
@[simp] theorem countMove_pending (s : State) : s.countMove.pending = s.pending := rfl
@[simp] theorem countMove_host (s : State) : s.countMove.host = s.host := rfl
@[simp] theorem countMove_rdata (s : State) : s.countMove.rdata = s.rdata := rfl
@[simp] theorem countMove_delay (s : State) : s.countMove.delay = s.delay - 1 := rfl
@[simp] theorem countMove_draws (s : State) : s.countMove.draws = s.draws := rfl

/-! dropWrite -/

@[simp] theorem dropWrite_status (s : State) : s.dropWrite.status = { s.status with busyViol := true } := rfl
@[simp] theorem dropWrite_ie (s : State) : s.dropWrite.ie = s.ie := rfl
@[simp] theorem dropWrite_cfgReq (s : State) : s.dropWrite.cfgReq = s.cfgReq := rfl
@[simp] theorem dropWrite_cfg (s : State) : s.dropWrite.cfg = s.cfg := rfl
@[simp] theorem dropWrite_opa (s : State) : s.dropWrite.opa = s.opa := rfl
@[simp] theorem dropWrite_opb (s : State) : s.dropWrite.opb = s.opb := rfl
@[simp] theorem dropWrite_opm (s : State) : s.dropWrite.opm = s.opm := rfl
@[simp] theorem dropWrite_res0 (s : State) : s.dropWrite.res0 = s.res0 := rfl
@[simp] theorem dropWrite_res1 (s : State) : s.dropWrite.res1 = s.res1 := rfl
@[simp] theorem dropWrite_res2 (s : State) : s.dropWrite.res2 = s.res2 := rfl
@[simp] theorem dropWrite_keyLen (s : State) : s.dropWrite.keyLen = s.keyLen := rfl
@[simp] theorem dropWrite_inLen (s : State) : s.dropWrite.inLen = s.inLen := rfl
@[simp] theorem dropWrite_outLen (s : State) : s.dropWrite.outLen = s.outLen := rfl
@[simp] theorem dropWrite_elapsed (s : State) : s.dropWrite.elapsed = s.elapsed := rfl
@[simp] theorem dropWrite_mem (s : State) : s.dropWrite.mem = s.mem := rfl
@[simp] theorem dropWrite_pending (s : State) : s.dropWrite.pending = s.pending := rfl
@[simp] theorem dropWrite_host (s : State) : s.dropWrite.host = s.host := rfl
@[simp] theorem dropWrite_rdata (s : State) : s.dropWrite.rdata = s.rdata := rfl
@[simp] theorem dropWrite_delay (s : State) : s.dropWrite.delay = s.delay := rfl
@[simp] theorem dropWrite_draws (s : State) : s.dropWrite.draws = s.draws := rfl

/-! putBezout -/

@[simp] theorem putBezout_status (s : State) (r : Bezout) : (s.putBezout r).status = s.status := rfl
@[simp] theorem putBezout_ie (s : State) (r : Bezout) : (s.putBezout r).ie = s.ie := rfl
@[simp] theorem putBezout_cfgReq (s : State) (r : Bezout) : (s.putBezout r).cfgReq = s.cfgReq := rfl
@[simp] theorem putBezout_cfg (s : State) (r : Bezout) : (s.putBezout r).cfg = s.cfg := rfl
@[simp] theorem putBezout_opa (s : State) (r : Bezout) : (s.putBezout r).opa = s.opa := rfl
@[simp] theorem putBezout_opb (s : State) (r : Bezout) : (s.putBezout r).opb = s.opb := rfl
@[simp] theorem putBezout_opm (s : State) (r : Bezout) : (s.putBezout r).opm = s.opm := rfl
@[simp] theorem putBezout_res0 (s : State) (r : Bezout) : (s.putBezout r).res0 = lowWord r.x := rfl
@[simp] theorem putBezout_res1 (s : State) (r : Bezout) : (s.putBezout r).res1 = lowWord r.y := rfl
@[simp] theorem putBezout_res2 (s : State) (r : Bezout) : (s.putBezout r).res2 = lowWord r.g := rfl
@[simp] theorem putBezout_keyLen (s : State) (r : Bezout) : (s.putBezout r).keyLen = s.keyLen := rfl
@[simp] theorem putBezout_inLen (s : State) (r : Bezout) : (s.putBezout r).inLen = s.inLen := rfl
@[simp] theorem putBezout_outLen (s : State) (r : Bezout) : (s.putBezout r).outLen = s.outLen := rfl
@[simp] theorem putBezout_elapsed (s : State) (r : Bezout) : (s.putBezout r).elapsed = s.elapsed := rfl
@[simp] theorem putBezout_mem (s : State) (r : Bezout) : (s.putBezout r).mem = s.mem := rfl
@[simp] theorem putBezout_pending (s : State) (r : Bezout) : (s.putBezout r).pending = s.pending := rfl
@[simp] theorem putBezout_host (s : State) (r : Bezout) : (s.putBezout r).host = s.host := rfl
@[simp] theorem putBezout_rdata (s : State) (r : Bezout) : (s.putBezout r).rdata = s.rdata := rfl
@[simp] theorem putBezout_delay (s : State) (r : Bezout) : (s.putBezout r).delay = s.delay := rfl
@[simp] theorem putBezout_draws (s : State) (r : Bezout) : (s.putBezout r).draws = s.draws := rfl

/-! putColumns -/

@[simp] theorem putColumns_status (s : State) (q : List Quad) : (s.putColumns q).status = s.status := rfl
@[simp] theorem putColumns_ie (s : State) (q : List Quad) : (s.putColumns q).ie = s.ie := rfl
@[simp] theorem putColumns_cfgReq (s : State) (q : List Quad) : (s.putColumns q).cfgReq = s.cfgReq := rfl
@[simp] theorem putColumns_cfg (s : State) (q : List Quad) : (s.putColumns q).cfg = s.cfg := rfl
@[simp] theorem putColumns_opa (s : State) (q : List Quad) : (s.putColumns q).opa = s.opa := rfl
@[simp] theorem putColumns_opb (s : State) (q : List Quad) : (s.putColumns q).opb = s.opb := rfl
@[simp] theorem putColumns_opm (s : State) (q : List Quad) : (s.putColumns q).opm = s.opm := rfl
@[simp] theorem putColumns_res0 (s : State) (q : List Quad) : (s.putColumns q).res0 = s.res0 := rfl
@[simp] theorem putColumns_res1 (s : State) (q : List Quad) : (s.putColumns q).res1 = s.res1 := rfl
@[simp] theorem putColumns_res2 (s : State) (q : List Quad) : (s.putColumns q).res2 = s.res2 := rfl
@[simp] theorem putColumns_keyLen (s : State) (q : List Quad) : (s.putColumns q).keyLen = s.keyLen := rfl
@[simp] theorem putColumns_inLen (s : State) (q : List Quad) : (s.putColumns q).inLen = s.inLen := rfl
@[simp] theorem putColumns_outLen (s : State) (q : List Quad) : (s.putColumns q).outLen = s.outLen := rfl
@[simp] theorem putColumns_elapsed (s : State) (q : List Quad) : (s.putColumns q).elapsed = s.elapsed := rfl
@[simp] theorem putColumns_mem (s : State) (q : List Quad) : (s.putColumns q).mem = s.mem.setBytes Window.state.base (flatten q) := rfl
@[simp] theorem putColumns_pending (s : State) (q : List Quad) : (s.putColumns q).pending = s.pending := rfl
@[simp] theorem putColumns_host (s : State) (q : List Quad) : (s.putColumns q).host = s.host := rfl
@[simp] theorem putColumns_rdata (s : State) (q : List Quad) : (s.putColumns q).rdata = s.rdata := rfl
@[simp] theorem putColumns_delay (s : State) (q : List Quad) : (s.putColumns q).delay = s.delay := rfl
@[simp] theorem putColumns_draws (s : State) (q : List Quad) : (s.putColumns q).draws = s.draws := rfl

/-! putSchedule -/

@[simp] theorem putSchedule_status (s : State) (sel : Sched) (w : List Quad) : (s.putSchedule sel w).status = s.status.setValid sel := rfl
@[simp] theorem putSchedule_ie (s : State) (sel : Sched) (w : List Quad) : (s.putSchedule sel w).ie = s.ie := rfl
@[simp] theorem putSchedule_cfgReq (s : State) (sel : Sched) (w : List Quad) : (s.putSchedule sel w).cfgReq = s.cfgReq := rfl
@[simp] theorem putSchedule_cfg (s : State) (sel : Sched) (w : List Quad) : (s.putSchedule sel w).cfg = s.cfg := rfl
@[simp] theorem putSchedule_opa (s : State) (sel : Sched) (w : List Quad) : (s.putSchedule sel w).opa = s.opa := rfl
@[simp] theorem putSchedule_opb (s : State) (sel : Sched) (w : List Quad) : (s.putSchedule sel w).opb = s.opb := rfl
@[simp] theorem putSchedule_opm (s : State) (sel : Sched) (w : List Quad) : (s.putSchedule sel w).opm = s.opm := rfl
@[simp] theorem putSchedule_res0 (s : State) (sel : Sched) (w : List Quad) : (s.putSchedule sel w).res0 = s.res0 := rfl
@[simp] theorem putSchedule_res1 (s : State) (sel : Sched) (w : List Quad) : (s.putSchedule sel w).res1 = s.res1 := rfl
@[simp] theorem putSchedule_res2 (s : State) (sel : Sched) (w : List Quad) : (s.putSchedule sel w).res2 = s.res2 := rfl
@[simp] theorem putSchedule_keyLen (s : State) (sel : Sched) (w : List Quad) : (s.putSchedule sel w).keyLen = s.keyLen := rfl
@[simp] theorem putSchedule_inLen (s : State) (sel : Sched) (w : List Quad) : (s.putSchedule sel w).inLen = s.inLen := rfl
@[simp] theorem putSchedule_outLen (s : State) (sel : Sched) (w : List Quad) : (s.putSchedule sel w).outLen = s.outLen := rfl
@[simp] theorem putSchedule_elapsed (s : State) (sel : Sched) (w : List Quad) : (s.putSchedule sel w).elapsed = s.elapsed := rfl
@[simp] theorem putSchedule_mem (s : State) (sel : Sched) (w : List Quad) : (s.putSchedule sel w).mem = s.mem.putWindow (schedWindow sel) (flatten w) s.draws := rfl
@[simp] theorem putSchedule_pending (s : State) (sel : Sched) (w : List Quad) : (s.putSchedule sel w).pending = s.pending := rfl
@[simp] theorem putSchedule_host (s : State) (sel : Sched) (w : List Quad) : (s.putSchedule sel w).host = s.host := rfl
@[simp] theorem putSchedule_rdata (s : State) (sel : Sched) (w : List Quad) : (s.putSchedule sel w).rdata = s.rdata := rfl
@[simp] theorem putSchedule_delay (s : State) (sel : Sched) (w : List Quad) : (s.putSchedule sel w).delay = s.delay := rfl
@[simp] theorem putSchedule_draws (s : State) (sel : Sched) (w : List Quad) : (s.putSchedule sel w).draws = s.draws := rfl

/-! putMessage -/

@[simp] theorem putMessage_status (s : State) (o : List Byte) : (s.putMessage o).status = s.status := rfl
@[simp] theorem putMessage_ie (s : State) (o : List Byte) : (s.putMessage o).ie = s.ie := rfl
@[simp] theorem putMessage_cfgReq (s : State) (o : List Byte) : (s.putMessage o).cfgReq = s.cfgReq := rfl
@[simp] theorem putMessage_cfg (s : State) (o : List Byte) : (s.putMessage o).cfg = s.cfg := rfl
@[simp] theorem putMessage_opa (s : State) (o : List Byte) : (s.putMessage o).opa = s.opa := rfl
@[simp] theorem putMessage_opb (s : State) (o : List Byte) : (s.putMessage o).opb = s.opb := rfl
@[simp] theorem putMessage_opm (s : State) (o : List Byte) : (s.putMessage o).opm = s.opm := rfl
@[simp] theorem putMessage_res0 (s : State) (o : List Byte) : (s.putMessage o).res0 = s.res0 := rfl
@[simp] theorem putMessage_res1 (s : State) (o : List Byte) : (s.putMessage o).res1 = s.res1 := rfl
@[simp] theorem putMessage_res2 (s : State) (o : List Byte) : (s.putMessage o).res2 = s.res2 := rfl
@[simp] theorem putMessage_keyLen (s : State) (o : List Byte) : (s.putMessage o).keyLen = s.keyLen := rfl
@[simp] theorem putMessage_inLen (s : State) (o : List Byte) : (s.putMessage o).inLen = s.inLen := rfl
@[simp] theorem putMessage_outLen (s : State) (o : List Byte) : (s.putMessage o).outLen = BitVec.ofNat 32 o.length := rfl
@[simp] theorem putMessage_elapsed (s : State) (o : List Byte) : (s.putMessage o).elapsed = s.elapsed := rfl
@[simp] theorem putMessage_mem (s : State) (o : List Byte) : (s.putMessage o).mem = s.mem.putWindow .msgOut o s.draws := rfl
@[simp] theorem putMessage_pending (s : State) (o : List Byte) : (s.putMessage o).pending = s.pending := rfl
@[simp] theorem putMessage_host (s : State) (o : List Byte) : (s.putMessage o).host = s.host := rfl
@[simp] theorem putMessage_rdata (s : State) (o : List Byte) : (s.putMessage o).rdata = s.rdata := rfl
@[simp] theorem putMessage_delay (s : State) (o : List Byte) : (s.putMessage o).delay = s.delay := rfl
@[simp] theorem putMessage_draws (s : State) (o : List Byte) : (s.putMessage o).draws = s.draws := rfl

/-! STATUS -/

@[simp] theorem accepted_busy (x : Status) : x.accepted.busy = true := rfl
@[simp] theorem accepted_done (x : Status) : x.accepted.done = false := rfl
@[simp] theorem accepted_err (x : Status) : x.accepted.err = x.err := rfl
@[simp] theorem accepted_ksaValid (x : Status) : x.accepted.ksaValid = x.ksaValid := rfl
@[simp] theorem accepted_ksbValid (x : Status) : x.accepted.ksbValid = x.ksbValid := rfl
@[simp] theorem accepted_errSticky (x : Status) : x.accepted.errSticky = x.errSticky := rfl
@[simp] theorem accepted_busyViol (x : Status) : x.accepted.busyViol = x.busyViol := rfl
@[simp] theorem completed_busy (x : Status) (e : ErrCode) : (x.completed e).busy = false := rfl
@[simp] theorem completed_done (x : Status) (e : ErrCode) : (x.completed e).done = true := rfl
@[simp] theorem completed_err (x : Status) (e : ErrCode) : (x.completed e).err = e := rfl
@[simp] theorem completed_ksaValid (x : Status) (e : ErrCode) : (x.completed e).ksaValid = x.ksaValid := rfl
@[simp] theorem completed_ksbValid (x : Status) (e : ErrCode) : (x.completed e).ksbValid = x.ksbValid := rfl
@[simp] theorem completed_errSticky (x : Status) (e : ErrCode) : (x.completed e).errSticky = (x.errSticky || e != .ok) := rfl
@[simp] theorem completed_busyViol (x : Status) (e : ErrCode) : (x.completed e).busyViol = x.busyViol := rfl
@[simp] theorem clearValid_busy (x : Status) : x.clearValid.busy = x.busy := rfl
@[simp] theorem clearValid_done (x : Status) : x.clearValid.done = x.done := rfl
@[simp] theorem clearValid_err (x : Status) : x.clearValid.err = x.err := rfl
@[simp] theorem clearValid_ksaValid (x : Status) : x.clearValid.ksaValid = false := rfl
@[simp] theorem clearValid_ksbValid (x : Status) : x.clearValid.ksbValid = false := rfl
@[simp] theorem clearValid_errSticky (x : Status) : x.clearValid.errSticky = x.errSticky := rfl
@[simp] theorem clearValid_busyViol (x : Status) : x.clearValid.busyViol = x.busyViol := rfl
@[simp] theorem writeOneToClear_busy (x : Status) (v : Word) : (x.writeOneToClear v).busy = x.busy := rfl
@[simp] theorem writeOneToClear_done (x : Status) (v : Word) : (x.writeOneToClear v).done = (x.done && !v.getLsbD 1) := rfl
@[simp] theorem writeOneToClear_err (x : Status) (v : Word) : (x.writeOneToClear v).err = x.err := rfl
@[simp] theorem writeOneToClear_ksaValid (x : Status) (v : Word) : (x.writeOneToClear v).ksaValid = x.ksaValid := rfl
@[simp] theorem writeOneToClear_ksbValid (x : Status) (v : Word) : (x.writeOneToClear v).ksbValid = x.ksbValid := rfl
@[simp] theorem writeOneToClear_errSticky (x : Status) (v : Word) : (x.writeOneToClear v).errSticky = (x.errSticky && !v.getLsbD 16) := rfl
@[simp] theorem writeOneToClear_busyViol (x : Status) (v : Word) : (x.writeOneToClear v).busyViol = (x.busyViol && !v.getLsbD 17) := rfl
@[simp] theorem setValid_a_busy (x : Status) : (x.setValid .a).busy = x.busy := rfl
@[simp] theorem setValid_a_done (x : Status) : (x.setValid .a).done = x.done := rfl
@[simp] theorem setValid_a_err (x : Status) : (x.setValid .a).err = x.err := rfl
@[simp] theorem setValid_a_ksaValid (x : Status) : (x.setValid .a).ksaValid = true := rfl
@[simp] theorem setValid_a_ksbValid (x : Status) : (x.setValid .a).ksbValid = x.ksbValid := rfl
@[simp] theorem setValid_a_errSticky (x : Status) : (x.setValid .a).errSticky = x.errSticky := rfl
@[simp] theorem setValid_a_busyViol (x : Status) : (x.setValid .a).busyViol = x.busyViol := rfl
@[simp] theorem setValid_b_busy (x : Status) : (x.setValid .b).busy = x.busy := rfl
@[simp] theorem setValid_b_done (x : Status) : (x.setValid .b).done = x.done := rfl
@[simp] theorem setValid_b_err (x : Status) : (x.setValid .b).err = x.err := rfl
@[simp] theorem setValid_b_ksaValid (x : Status) : (x.setValid .b).ksaValid = x.ksaValid := rfl
@[simp] theorem setValid_b_ksbValid (x : Status) : (x.setValid .b).ksbValid = true := rfl
@[simp] theorem setValid_b_errSticky (x : Status) : (x.setValid .b).errSticky = x.errSticky := rfl
@[simp] theorem setValid_b_busyViol (x : Status) : (x.setValid .b).busyViol = x.busyViol := rfl

@[simp] theorem valid_a (x : Status) : x.valid .a = x.ksaValid := rfl
@[simp] theorem valid_b (x : Status) : x.valid .b = x.ksbValid := rfl

theorem setValid_valid (x : Status) (sel sel' : Sched) :
    (x.setValid sel).valid sel' = (decide (sel' = sel) || x.valid sel') := by
  cases sel <;> cases sel' <;> simp [Status.setValid, Status.valid]

end Sys2Proof.Machine
end

