-- ==== Sys2Proof/Laws/Ops.lean ====
section
/-! SUPPORT. What each shared operation of the meanings can answer, said once. -/

namespace Sys2Proof.Machine

theorem complete_next {s t : State} : complete s = .next t ↔ t = s.finish .ok := by
  simp [complete, eq_comm]

theorem raise_next {e : ErrCode} {s t : State} : raise e s = .next t ↔ t = s.finish e := by
  simp [raise, eq_comm]

theorem afterRead_next {α : Type} {r : Except Fault α} {k : α → Result} {t : State} :
    afterRead r k = .next t ↔ ∃ a, r = .ok a ∧ k a = .next t := by
  cases r <;> simp [afterRead]

@[simp] theorem afterRead_ok {α : Type} (a : α) (k : α → Result) : afterRead (.ok a) k = k a := rfl

@[simp] theorem afterRead_error {α : Type} (f : Fault) (k : α → Result) : afterRead (.error f) k = .fault f := rfl

/-- Taking an error writes nothing but STATUS and ELAPSED of what the host can read (60_exceptions.md R304). -/
theorem raise_regWord (e : ErrCode) (s t : State) (h : raise e s = .next t) (r : Reg) (h1 : r ≠ .status)
    (h2 : r ≠ .elapsed) : t.regWord r = s.regWord r ∧ t.mem = s.mem := by
  obtain rfl := raise_next.1 h
  cases r <;> simp_all [State.regWord]

/-- A command with a modulus: the error, or its result. -/
theorem withModulus_next {s k t : State} :
    withModulus s k = .next t ↔
      (s.opm = 0 ∧ t = s.finish .zeroModulus) ∨ (s.opm ≠ 0 ∧ t = k.finish .ok) := by
  unfold withModulus
  split <;> simp_all [complete_next, raise_next]

/-- The key-length checks: one of the two errors, or the rest. -/
theorem withKeyLength_next {least : Nat} {s t : State} {k : Result} :
    withKeyLength least s k = .next t ↔
      (s.keyLen.toNat < least ∧ t = s.finish .keyLength) ∨
      (least ≤ s.keyLen.toNat ∧ keyBufBytes < s.keyLen.toNat ∧ t = s.finish .length) ∨
      (least ≤ s.keyLen.toNat ∧ s.keyLen.toNat ≤ keyBufBytes ∧ k = .next t) := by
  unfold withKeyLength
  split
  · rename_i h
    have h' : ¬ least ≤ s.keyLen.toNat := by omega
    simp [raise_next, h, h']
  · rename_i h
    have h' : least ≤ s.keyLen.toNat := by omega
    split
    · rename_i g
      have g' : ¬ s.keyLen.toNat ≤ keyBufBytes := by omega
      simp [raise_next, h, h', g, g']
    · rename_i g
      have g' : s.keyLen.toNat ≤ keyBufBytes := by omega
      simp [h, h', g, g']

/-- The message-length check: the error, or the rest. -/
theorem withMessageLength_next {s t : State} {k : Result} :
    withMessageLength s k = .next t ↔
      (bufBytes < s.inLen.toNat ∧ t = s.finish .length) ∨ (s.inLen.toNat ≤ bufBytes ∧ k = .next t) := by
  unfold withMessageLength
  split
  · rename_i h
    have h' : ¬ s.inLen.toNat ≤ bufBytes := by omega
    simp [raise_next, h, h']
  · rename_i h
    have h' : s.inLen.toNat ≤ bufBytes := by omega
    simp [h, h']

/-- A layer command completes exactly when its columns hold values. -/
theorem layer_next {f : List Quad → List Quad} {s t : State} :
    layer f s = .next t ↔ ∃ m, readColumns s = .ok m ∧ t = (s.putColumns (f m)).finish .ok := by
  simp [layer, afterRead_next, complete_next]

/-- ADD_ROUND_KEY: one of the two errors, or its result. -/
theorem execAddRoundKey_next {sel : Sched} {rnd : Nat} {s t : State} :
    execAddRoundKey sel rnd s = .next t ↔
      (s.status.valid sel = false ∧ t = s.finish .noSchedule) ∨
      (s.status.valid sel = true ∧ s.cfg.rounds < rnd ∧ t = s.finish .range) ∨
      (s.status.valid sel = true ∧ rnd ≤ s.cfg.rounds ∧ ∃ w m, readSchedule sel s = .ok w ∧ readColumns s = .ok m ∧
        t = (s.putColumns (addRoundKey m (roundKey w s.cfg.nbWords rnd))).finish .ok) := by
  unfold execAddRoundKey
  split
  · rename_i h
    simp [raise_next, h]
  · rename_i h
    split
    · rename_i g
      have g' : ¬ rnd ≤ s.cfg.rounds := by omega
      simp_all [raise_next]
    · rename_i g
      have g' : rnd ≤ s.cfg.rounds := by omega
      simp_all [afterRead_next, layer_next]

/-- ENCRYPT_BLOCK and DECRYPT_BLOCK: the error, or their result. -/
theorem wholeBlock_next {f : List Byte → List Quad → List Quad → Nat → Nat → List Byte} {s t : State} :
    wholeBlock f s = .next t ↔
      ((s.status.ksaValid = false ∨ s.status.ksbValid = false) ∧ t = s.finish .noSchedule) ∨
      (s.status.ksaValid = true ∧ s.status.ksbValid = true ∧ ∃ wA wB m, readSchedule .a s = .ok wA ∧
        readSchedule .b s = .ok wB ∧ readColumns s = .ok m ∧
        t = (s.putColumns (load (f (flatten m) wA wB s.cfg.nbWords s.cfg.rounds))).finish .ok) := by
  unfold wholeBlock
  split
  · rename_i h
    simp_all [raise_next]
    rcases h with h | h <;> simp [h]
  · rename_i h
    simp_all [afterRead_next, layer_next]

/-- KEY_EXPAND_ROT and KEY_EXPAND_NOROT: one of the two errors, or their result. -/
theorem expandWholeKey_next {sel : Sched} {rot : Bool} {s t : State} :
    expandWholeKey sel rot s = .next t ↔
      (s.keyLen.toNat < 1 ∧ t = s.finish .keyLength) ∨
      (1 ≤ s.keyLen.toNat ∧ keyBufBytes < s.keyLen.toNat ∧ t = s.finish .length) ∨
      (1 ≤ s.keyLen.toNat ∧ s.keyLen.toNat ≤ keyBufBytes ∧
        ∃ k, readKey s = .ok k ∧ t = (s.putSchedule sel (expand s.cfg k rot)).finish .ok) := by
  simp [expandWholeKey, withKeyLength_next, afterRead_next, complete_next]

/-- The part ECB_ENCRYPT and ECB_DECRYPT share completes exactly when key and message hold values. -/
theorem frame_next {f : Cfg → List Byte → List Byte → List Byte} {s t : State} :
    frame f s = .next t ↔
      ∃ k p, readKey s = .ok k ∧ readMessage s = .ok p ∧
        t = ((s.putSchedules k).putMessage (f s.cfg k p)).finish .ok := by
  simp [frame, afterRead_next, complete_next]

end Sys2Proof.Machine
end

