-- ==== Sys2Proof/Laws/Bus.lean ====
section
/-! SUPPORT. What a step, a bus access and the address decoder can answer, said once. -/

namespace Sys2Proof.Machine

/-- A step is the sequencer's or the host's (00_scope.md R17). -/
theorem step_sequencer {s : State} {w : Word} (h : s.sequencerWord = some w) : step s = runCommand w s := by
  simp [step, h]

theorem step_host {s : State} (h : s.sequencerWord = none) : step s = hostStep s := by
  simp [step, h]

theorem sequencerWord_eq_some {s : State} {w : Word} :
    s.sequencerWord = some w ↔ s.pending = some w ∧ (s.delay = 0 ∨ s.host = []) := by
  unfold State.sequencerWord
  cases s.pending with
  | none => simp
  | some v =>
    by_cases h : s.delay = 0 ∨ s.host = [] <;> simp [h]

theorem sequencerWord_eq_none {s : State} :
    s.sequencerWord = none ↔ s.pending = none ∨ (s.delay ≠ 0 ∧ s.host ≠ []) := by
  unfold State.sequencerWord
  cases s.pending with
  | none => simp
  | some v =>
    by_cases h : s.delay = 0 ∨ s.host = [] <;> simp [h]
    · rcases h with h | h <;> simp [h]
    · simpa using h

/-- The sequencer runs a decoded command, or takes the error of an illegal word. -/
theorem runCommand_cases (w : Word) (s : State) :
    (∃ i, decode w = .ok i ∧ runCommand w s = exec i s) ∨
    ((∃ e, decode w = .error e) ∧ runCommand w s = .next (s.finish .illegalCmd)) := by
  unfold runCommand
  cases h : decode w with
  | ok i => exact .inl ⟨i, by simp⟩
  | error e => exact .inr ⟨⟨e, rfl⟩, rfl⟩

/-- The address decoder answers a bus error, a register by its offset, or a window that contains the offset. -/
theorem busTarget_cases (off : Nat) :
    (off % 4 ≠ 0 ∧ busTarget off = .error (.busMisaligned off)) ∨
    (off % 4 = 0 ∧ ∃ r : Reg, r.offset = off ∧ busTarget off = .ok (.reg r)) ∨
    (off % 4 = 0 ∧ ∃ w : Window, w.contains off = true ∧ busTarget off = .ok (.window w)) ∨
    (off % 4 = 0 ∧ busTarget off = .error (.busReserved off)) := by
  unfold busTarget
  by_cases h : off % 4 ≠ 0
  · exact .inl ⟨h, by simp [h]⟩
  · refine .inr ?_
    have h4 : off % 4 = 0 := by omega
    simp only [h, if_false]
    cases hr : regsInOrder.find? (fun r => r.offset == off) with
    | some r =>
      have := List.find?_some hr
      exact .inl ⟨h4, r, by simpa using this, rfl⟩
    | none =>
      cases hw : windowsInOrder.find? (fun w => w.contains off) with
      | some w => exact .inr (.inl ⟨h4, w, List.find?_some (p := fun w : Window => w.contains off) hw, rfl⟩)
      | none => exact .inr (.inr ⟨h4, rfl⟩)

/-- A host write: a bus error, a write dropped while BUSY, or the location's own effect. -/
theorem hostWrite_cases (off : Nat) (v : Word) (s : State) :
    (∃ f, busTarget off = .error f ∧ hostWrite off v s = .fault f) ∨
    (∃ t, busTarget off = .ok t ∧ s.status.busy = true ∧ writableWhileBusy t = false ∧
      hostWrite off v s = .next s.dropWrite) ∨
    (∃ t, busTarget off = .ok t ∧ (s.status.busy = true → writableWhileBusy t = true) ∧
      hostWrite off v s = .next (s.writeTarget off v t)) := by
  unfold hostWrite
  cases h : busTarget off with
  | error f => exact .inl ⟨f, rfl, rfl⟩
  | ok t =>
    refine .inr ?_
    cases hb : s.status.busy <;> cases hw : writableWhileBusy t <;> simp [hw]

/-- A host read changes nothing but the data returned and the draw counter (20_memory.md R78). -/
theorem hostRead_next {off : Nat} {s t : State} (h : hostRead off s = .next t) :
    ∃ v, t = { s with rdata := some v } ∨ t = { s with rdata := some v, draws := s.draws + 1 } := by
  unfold hostRead at h
  cases hb : busTarget off with
  | error f => simp [hb] at h
  | ok x =>
    simp only [hb] at h
    split at h
    · exact ⟨_, .inr (by simpa using h.symm)⟩
    · obtain ⟨v, -, hv⟩ := afterRead_next.1 h
      exact ⟨v, .inl (by simpa using hv.symm)⟩

end Sys2Proof.Machine
end

