-- ==== Sys2Proof/Laws/Lengths.lean ====
section
/-! SUPPORT. The sizes of what the pure functions return, and the small laws of Load and Flatten. -/

namespace Sys2Proof.Machine

@[simp] theorem flatten_nil : flatten [] = [] := rfl

@[simp] theorem load_flatten (qs : List Quad) : load (flatten qs) = qs := by
  induction qs with
  | nil => rfl
  | cons q qs ih => simp [flatten, load, ih]

@[simp] theorem flatten_length (qs : List Quad) : (flatten qs).length = 4 * qs.length := by
  induction qs with
  | nil => rfl
  | cons q qs ih =>
    simp only [flatten, List.length_cons, ih]
    omega

theorem flatten_load (n : Nat) (bs : List Byte) (h : bs.length = 4 * n) : flatten (load bs) = bs := by
  induction n generalizing bs with
  | zero =>
    obtain rfl := List.eq_nil_of_length_eq_zero h
    rfl
  | succ n ih =>
    match bs, h with
    | b0 :: b1 :: b2 :: b3 :: bs, h =>
      have hl : bs.length = 4 * n := by
        simp only [List.length_cons] at h
        omega
      simp [load, flatten, ih bs hl]

theorem load_length (n : Nat) (bs : List Byte) (h : bs.length = 4 * n) : (load bs).length = n := by
  have := congrArg List.length (flatten_load n bs h)
  rw [flatten_length] at this
  omega

/-- Byte 4*c + r of a flattened matrix is row r of column c (43_block_transform.md R200). -/
theorem flatten_getElem? (qs : List Quad) (c : Nat) (q : Quad) (h : qs[c]? = some q) :
    (flatten qs)[4 * c]? = some q.b0 ∧ (flatten qs)[4 * c + 1]? = some q.b1 ∧
      (flatten qs)[4 * c + 2]? = some q.b2 ∧ (flatten qs)[4 * c + 3]? = some q.b3 := by
  induction qs generalizing c with
  | nil => simp at h
  | cons p qs ih =>
    cases c with
    | zero =>
      obtain rfl : p = q := by simpa using h
      simp [flatten]
    | succ c =>
      have := ih c (by simpa using h)
      simpa [flatten, show 4 * (c + 1) = 4 * c + 1 + 1 + 1 + 1 by omega] using this

theorem words_pos (z : SizeClass) : 4 ≤ z.words ∧ z.words ≤ 8 := by cases z <;> decide

theorem nbWords_pos (c : Cfg) : 4 ≤ c.nbWords ∧ c.nbWords ≤ 8 := words_pos c.nb

theorem nkWords_pos (c : Cfg) : 4 ≤ c.nkWords ∧ c.nkWords ≤ 8 := words_pos c.nk

/-- NR_TABLE's entries are 1 to 14, whatever the parameter (41_tables_operators.md R166). -/
theorem nrTable_bounds (kc bc : SizeClass) : 1 ≤ nrTable kc bc ∧ nrTable kc bc ≤ 14 := by
  cases kc <;> cases bc <;> simp only [nrTable] <;> omega

@[simp] theorem stretch_length (k : List Byte) (n : Nat) : (stretch k n).length = n := by simp [stretch]

@[simp] theorem seedWords_length (nk : Nat) (k : List Byte) : (seedWords nk k).length = nk :=
  load_length nk _ (by simp)

theorem expandFrom_length (nb nk : Nat) (rot : Bool) (n i : Nat) (ws : List Quad) :
    (expandFrom nb nk rot n i ws).length = ws.length + n := by
  induction n generalizing i ws with
  | zero => rfl
  | succ n ih =>
    simp only [expandFrom, ih, List.length_cons]
    omega

/-- Expansion returns (NR+1)*NB words (42_key_schedule.md R180). -/
@[simp] theorem expand_length (c : Cfg) (k : List Byte) (rot : Bool) : (expand c k rot).length = c.schedLen := by
  simp only [expand, List.length_take, List.length_reverse, expandFrom_length, seedWords_length]
  omega

theorem roundKey_length (w : List Quad) (nb nr r : Nat) (hw : w.length = (nr + 1) * nb) (hr : r ≤ nr) :
    (roundKey w nb r).length = nb := by
  have : (r + 1) * nb ≤ (nr + 1) * nb := Nat.mul_le_mul_right nb (by omega)
  simp only [roundKey, List.length_take, List.length_drop, hw]
  rw [Nat.succ_mul] at this
  omega

@[simp] theorem subBytes_length (m : List Quad) : (subBytes m).length = m.length := by simp [subBytes]
@[simp] theorem invSubBytes_length (m : List Quad) : (invSubBytes m).length = m.length := by simp [invSubBytes]
@[simp] theorem shiftRows_length (m : List Quad) : (shiftRows m).length = m.length := by simp [shiftRows]
@[simp] theorem invShiftRows_length (m : List Quad) : (invShiftRows m).length = m.length := by simp [invShiftRows]
@[simp] theorem mixColumns_length (m : List Quad) : (mixColumns m).length = m.length := by simp [mixColumns]
@[simp] theorem invMixColumns_length (m : List Quad) : (invMixColumns m).length = m.length := by
  simp [invMixColumns]
@[simp] theorem altMixColumns_length (m : List Quad) : (altMixColumns m).length = m.length := by
  simp [altMixColumns]
@[simp] theorem invAltMixColumns_length (m : List Quad) : (invAltMixColumns m).length = m.length := by
  simp [invAltMixColumns]
@[simp] theorem addRoundKey_length (m rk : List Quad) : (addRoundKey m rk).length = min m.length rk.length := by
  simp [addRoundKey]

theorem addKeysAB_length (wA wB : List Quad) (nb nr i : Nat) (m : List Quad) (hA : wA.length = (nr + 1) * nb)
    (hB : wB.length = (nr + 1) * nb) (hi : i ≤ nr) (hm : m.length = nb) :
    (addKeysAB wA wB nb i m).length = nb := by
  simp [addKeysAB, roundKey_length _ nb nr i hA hi, roundKey_length _ nb nr i hB hi, hm]

theorem addKeysBA_length (wA wB : List Quad) (nb nr i : Nat) (m : List Quad) (hA : wA.length = (nr + 1) * nb)
    (hB : wB.length = (nr + 1) * nb) (hi : i ≤ nr) (hm : m.length = nb) :
    (addKeysBA wA wB nb i m).length = nb := by
  simp [addKeysBA, roundKey_length _ nb nr i hA hi, roundKey_length _ nb nr i hB hi, hm]

/-- Padding adds missing + T bytes (44_ecb_frame.md R241). -/
@[simp] theorem padMessage_length (p : List Byte) (t : Nat) :
    (padMessage p t).length = p.length + missingBytes p.length t + t := by
  simp [padMessage]
  omega

theorem mapBlocks_length (f : List Byte → List Byte) (t : Nat) (q : List Byte)
    (hf : ∀ j, j < q.length / t → (f (blockAt q t j)).length = t) :
    (mapBlocks f t q).length = q.length / t * t := by
  have key : ∀ n, (∀ j, j < n → (f (blockAt q t j)).length = t) →
      ((List.range n).flatMap fun j => f (blockAt q t j)).length = n * t := by
    intro n
    induction n with
    | zero => simp
    | succ n ih =>
      intro h
      rw [List.range_succ, List.flatMap_append, List.length_append, ih fun j hj => h j (by omega)]
      simp [h n (by omega), Nat.succ_mul]
  exact key _ hf

end Sys2Proof.Machine
end

