-- ==== Sys2Proof/Laws/Memory.lean ====
section
/-! SUPPORT. The laws of the window memory: what a byte reads as after each operation, and that each operation keeps
the canonical form. -/

namespace Sys2Proof.Machine

theorem byteAt_nil (a : Nat) : Memory.byteAt [] a = none := rfl

theorem byteAt_append (m n : Memory) (a : Nat) :
    Memory.byteAt (m ++ n) a = (Memory.byteAt m a).or (Memory.byteAt n a) := by
  induction m with
  | nil => simp [Memory.byteAt]
  | cons c m ih =>
    simp only [List.cons_append, Memory.byteAt]
    split <;> simp [ih]

/-- A filter that keeps or drops all cells of an offset keeps or drops what it reads as. -/
theorem byteAt_filter (m : Memory) (p : Nat → Bool) (a : Nat) :
    Memory.byteAt (m.filter fun c => p c.1) a = if p a then Memory.byteAt m a else none := by
  induction m with
  | nil => simp [Memory.byteAt]
  | cons c m ih =>
    by_cases hc : p c.1 = true
    · simp only [List.filter_cons, hc, if_true, Memory.byteAt, ih]
      by_cases h : c.1 = a
      · subst h; simp [hc]
      · simp [h]
    · by_cases h : c.1 = a
      · subst h; simp [hc, ih]
      · simp [h, hc, Memory.byteAt, ih]

theorem byteAt_cellsFrom (lo : Nat) (bs : List Byte) (a : Nat) :
    Memory.byteAt (cellsFrom lo bs) a = if lo ≤ a then bs[a - lo]? else none := by
  induction bs generalizing lo with
  | nil => simp [cellsFrom, Memory.byteAt]
  | cons b bs ih =>
    simp only [cellsFrom, Memory.byteAt, ih]
    by_cases h : lo = a
    · simp [h]
    · by_cases h' : lo ≤ a
      · have : a - lo = (a - (lo + 1)) + 1 := by omega
        have h2 : lo + 1 ≤ a := by omega
        simp [h, h', h2, this]
      · have h2 : ¬ lo + 1 ≤ a := by omega
        simp [h, h', h2]

/-- A byte of the memory after bytes are set. -/
theorem byteAt_setBytes (m : Memory) (lo : Nat) (bs : List Byte) (a : Nat) :
    (m.setBytes lo bs).byteAt a =
      if lo ≤ a ∧ a < lo + bs.length then bs[a - lo]? else m.byteAt a := by
  have below := byteAt_filter m (fun k => decide (k < lo)) a
  have above := byteAt_filter m (fun k => decide (lo + bs.length ≤ k)) a
  simp only [Memory.setBytes, byteAt_append, below, above, byteAt_cellsFrom]
  by_cases h1 : a < lo
  · have h2 : ¬ lo ≤ a := by omega
    have h3 : ¬ lo + bs.length ≤ a := by omega
    simp [h1, h2, h3]
  · have h2 : lo ≤ a := by omega
    by_cases h3 : a < lo + bs.length
    · have h4 : ¬ lo + bs.length ≤ a := by omega
      have h5 : a - lo < bs.length := by omega
      simp [h1, h2, h3, h4, h5]
    · have h4 : lo + bs.length ≤ a := by omega
      have h5 : bs.length ≤ a - lo := by omega
      simp [h1, h2, h3, h4, List.getElem?_eq_none h5]

/-- A byte written reads as written. -/
theorem byteAt_setBytes_inside (m : Memory) (lo k : Nat) (bs : List Byte) (h : k < bs.length) :
    (m.setBytes lo bs).byteAt (lo + k) = some bs[k] := by
  rw [byteAt_setBytes, if_pos (by omega)]
  simp [h]

/-- A byte outside those written reads as before. -/
theorem byteAt_setBytes_outside (m : Memory) (lo a : Nat) (bs : List Byte) (h : a < lo ∨ lo + bs.length ≤ a) :
    (m.setBytes lo bs).byteAt a = m.byteAt a := by
  rw [byteAt_setBytes, if_neg (by omega)]

theorem byteAt_forget (m : Memory) (lo hi d a : Nat) :
    (m.forget lo hi d).byteAt a =
      if lo ≤ a ∧ a < hi then (m.byteAt a).map (fun _ => Config.unspecifiedByte d a) else m.byteAt a := by
  induction m with
  | nil => simp [Memory.forget, Memory.byteAt]
  | cons c m ih =>
    simp only [Memory.forget, List.map_cons, Memory.byteAt] at ih ⊢
    rw [ih]
    by_cases hc : c.1 = a
    · subst hc
      by_cases hr : lo ≤ c.1 ∧ c.1 < hi <;> simp [hr]
    · simp [hc]

/-- An offset outside those forgotten reads as before. -/
theorem byteAt_forget_outside (m : Memory) (lo hi d a : Nat) (h : a < lo ∨ hi ≤ a) :
    (m.forget lo hi d).byteAt a = m.byteAt a := by
  rw [byteAt_forget, if_neg (by omega)]

/-- Forgetting takes no value away and gives none. -/
theorem byteAt_forget_isSome (m : Memory) (lo hi d a : Nat) :
    ((m.forget lo hi d).byteAt a).isSome = (m.byteAt a).isSome := by
  rw [byteAt_forget]
  split <;> simp

theorem mem_cellsFrom {lo : Nat} {bs : List Byte} {c : Host.Cell} (h : c ∈ cellsFrom lo bs) :
    lo ≤ c.1 ∧ c.1 < lo + bs.length := by
  induction bs generalizing lo with
  | nil => simp [cellsFrom] at h
  | cons b bs ih =>
    rcases List.mem_cons.1 h with rfl | h
    · simp
    · have := ih h
      simp only [List.length_cons]
      omega

theorem cellsFrom_wf (lo : Nat) (bs : List Byte) : Memory.wf (cellsFrom lo bs) := by
  induction bs generalizing lo with
  | nil => exact List.Pairwise.nil
  | cons b bs ih =>
    refine List.Pairwise.cons (fun c hc => ?_) (ih (lo + 1))
    have := mem_cellsFrom hc
    simp only
    omega

/-- The offsets that hold a value after bytes are set. -/
theorem mem_setBytes {m : Memory} {lo : Nat} {bs : List Byte} {c : Host.Cell} (h : c ∈ m.setBytes lo bs) :
    c ∈ m ∨ lo ≤ c.1 ∧ c.1 < lo + bs.length := by
  simp only [Memory.setBytes, List.mem_append, List.mem_filter] at h
  rcases h with (h | h) | h
  · exact .inl h.1
  · exact .inr (mem_cellsFrom h)
  · exact .inl h.1

/-- Setting bytes keeps the canonical form. -/
theorem setBytes_wf {m : Memory} (h : m.wf) (lo : Nat) (bs : List Byte) : (m.setBytes lo bs).wf := by
  refine List.pairwise_append.2 ⟨List.pairwise_append.2 ⟨h.filter _, cellsFrom_wf lo bs, ?_⟩, h.filter _, ?_⟩
  · intro c hc d hd
    have := mem_cellsFrom hd
    have := (List.mem_filter.1 hc).2
    simp only [decide_eq_true_eq] at this
    omega
  · intro c hc d hd
    have hd := (List.mem_filter.1 hd).2
    simp only [decide_eq_true_eq] at hd
    rcases List.mem_append.1 hc with hc | hc
    · have := (List.mem_filter.1 hc).2
      simp only [decide_eq_true_eq] at this
      omega
    · have := mem_cellsFrom hc
      omega

theorem forget_keys (m : Memory) (lo hi d : Nat) :
    (m.forget lo hi d).map Prod.fst = m.map Prod.fst := by
  simp only [Memory.forget, List.map_map]
  exact List.map_congr_left fun c _ => rfl

/-- The offsets that hold a value are the same after forgetting. -/
theorem mem_forget {m : Memory} {lo hi d : Nat} {c : Host.Cell} (h : c ∈ m.forget lo hi d) :
    ∃ b ∈ m, b.1 = c.1 := by
  have : c.1 ∈ (m.forget lo hi d).map Prod.fst := List.mem_map_of_mem h
  rw [forget_keys] at this
  obtain ⟨b, hb, hbc⟩ := List.mem_map.1 this
  exact ⟨b, hb, hbc⟩

/-- Forgetting keeps the canonical form. -/
theorem forget_wf {m : Memory} (h : m.wf) (lo hi d : Nat) : (m.forget lo hi d).wf := by
  have key : ∀ n : Memory, n.wf ↔ (n.map Prod.fst).Pairwise (· < ·) := fun n =>
    (List.pairwise_map (R := (· < ·)) (f := Prod.fst) (l := n)).symm
  rw [key, forget_keys, ← key]
  exact h

theorem mem_of_byteAt {m : Memory} {a : Nat} {b : Byte} (h : m.byteAt a = some b) : (a, b) ∈ m := by
  induction m with
  | nil => simp [Memory.byteAt] at h
  | cons c m ih =>
    simp only [Memory.byteAt] at h
    split at h
    · rename_i hc
      obtain rfl : c.2 = b := by simpa using h
      subst hc
      exact List.mem_cons_self
    · exact List.mem_cons_of_mem _ (ih h)

theorem byteAt_of_mem {m : Memory} (hm : m.wf) {c : Host.Cell} (h : c ∈ m) : m.byteAt c.1 = some c.2 := by
  induction m with
  | nil => cases h
  | cons d m ih =>
    rcases List.mem_cons.1 h with rfl | h
    · simp [Memory.byteAt]
    · have := (List.pairwise_cons.1 hm).1 c h
      have hne : d.1 ≠ c.1 := by omega
      simp only [Memory.byteAt, if_neg hne]
      exact ih (List.pairwise_cons.1 hm).2 h

/-- Reading n bytes answers exactly the bytes held, when all hold a value. -/
theorem readBytes_ok_iff (m : Memory) (a n : Nat) (bs : List Byte) :
    m.readBytes a n = .ok bs ↔ bs.length = n ∧ ∀ k, k < n → m.byteAt (a + k) = bs[k]? := by
  induction n generalizing a bs with
  | zero =>
    cases bs <;> simp [Memory.readBytes]
  | succ n ih =>
    simp only [Memory.readBytes]
    cases hb : m.byteAt a with
    | none =>
      refine iff_of_false (by simp) fun ⟨hl, h⟩ => ?_
      have := h 0 (by omega)
      simp only [Nat.add_zero, hb] at this
      cases bs with
      | nil => simp at hl
      | cons b bs => simp at this
    | some b =>
      cases hr : m.readBytes (a + 1) n with
      | error f =>
        refine iff_of_false (by simp) fun ⟨hl, h⟩ => ?_
        cases bs with
        | nil => simp at hl
        | cons c bs =>
          have : m.readBytes (a + 1) n = .ok bs := (ih (a + 1) bs).2 ⟨by simpa using hl, fun k hk => by
            have := h (k + 1) (by omega)
            rw [show a + 1 + k = a + (k + 1) by omega, this]
            simp⟩
          rw [hr] at this
          cases this
      | ok cs =>
        simp only [Except.ok.injEq]
        constructor
        · rintro rfl
          obtain ⟨hl, h⟩ := (ih (a + 1) cs).1 hr
          refine ⟨by simp [hl], fun k hk => ?_⟩
          cases k with
          | zero => simp [hb]
          | succ k =>
            rw [show a + (k + 1) = a + 1 + k by omega, h k (by omega)]
            simp
        · rintro ⟨hl, h⟩
          cases bs with
          | nil => simp at hl
          | cons c bs =>
            have h0 := h 0 (by omega)
            simp only [Nat.add_zero, hb, List.getElem?_cons_zero, Option.some.injEq] at h0
            have : m.readBytes (a + 1) n = .ok bs := (ih (a + 1) bs).2 ⟨by simpa using hl, fun k hk => by
              have := h (k + 1) (by omega)
              rw [show a + 1 + k = a + (k + 1) by omega, this]
              simp⟩
            rw [hr] at this
            cases this
            rw [h0]

theorem readBytes_length {m : Memory} {a n : Nat} {bs : List Byte} (h : m.readBytes a n = .ok bs) :
    bs.length = n := ((readBytes_ok_iff m a n bs).1 h).1

/-- Reading depends only on the bytes read. -/
theorem readBytes_congr {m m' : Memory} {a n : Nat} (h : ∀ k, k < n → m.byteAt (a + k) = m'.byteAt (a + k)) :
    m.readBytes a n = m'.readBytes a n := by
  induction n generalizing a with
  | zero => rfl
  | succ n ih =>
    have h0 := h 0 (by omega)
    simp only [Nat.add_zero] at h0
    have h1 : m.readBytes (a + 1) n = m'.readBytes (a + 1) n := ih fun k hk => by
      have := h (k + 1) (by omega)
      rwa [show a + (k + 1) = a + 1 + k by omega] at this
    simp only [Memory.readBytes, h0, h1]

/-- Reading back bytes just set. -/
theorem readBytes_setBytes (m : Memory) (lo : Nat) (bs : List Byte) (n : Nat) (h : n ≤ bs.length) :
    (m.setBytes lo bs).readBytes lo n = .ok (bs.take n) := by
  refine (readBytes_ok_iff _ _ _ _).2 ⟨by simpa using h, fun k hk => ?_⟩
  rw [byteAt_setBytes_inside _ _ _ _ (by omega), List.getElem?_take_of_lt hk]
  simp [show k < bs.length by omega]

/-- Reading bytes outside those set. -/
theorem readBytes_setBytes_outside (m : Memory) (lo a n : Nat) (bs : List Byte)
    (h : a + n ≤ lo ∨ lo + bs.length ≤ a) : (m.setBytes lo bs).readBytes a n = m.readBytes a n :=
  readBytes_congr fun k _ => byteAt_setBytes_outside m lo (a + k) bs (by omega)

/-! putWindow: what a byte reads as after a result is written to a window. -/

/-- A byte inside the result. -/
theorem byteAt_putWindow_inside (m : Memory) (w : Window) (bs : List Byte) (d k : Nat) (h : k < bs.length) :
    (m.putWindow w bs d).byteAt (w.base + k) = some bs[k] := byteAt_setBytes_inside _ _ _ _ h

/-- A byte outside both the window and the result. -/
theorem byteAt_putWindow_outside (m : Memory) (w : Window) (bs : List Byte) (d a : Nat)
    (h : a < w.base ∨ w.base + w.size ≤ a ∧ w.base + bs.length ≤ a) :
    (m.putWindow w bs d).byteAt a = m.byteAt a := by
  rw [Memory.putWindow, byteAt_setBytes_outside _ _ _ _ (by omega), byteAt_forget_outside _ _ _ _ _ (by omega)]

/-- A byte of the window above the result: unspecified if it held a value, and without one if not. -/
theorem byteAt_putWindow_above (m : Memory) (w : Window) (bs : List Byte) (d a : Nat)
    (h : w.base + bs.length ≤ a) (h' : a < w.base + w.size) :
    (m.putWindow w bs d).byteAt a = (m.byteAt a).map fun _ => Config.unspecifiedByte d a := by
  rw [Memory.putWindow, byteAt_setBytes_outside _ _ _ _ (by omega), byteAt_forget, if_pos ⟨h, h'⟩]

/-- Reading a result back. -/
theorem readBytes_putWindow (m : Memory) (w : Window) (bs : List Byte) (d : Nat) :
    (m.putWindow w bs d).readBytes w.base bs.length = .ok bs := by
  rw [Memory.putWindow, readBytes_setBytes _ _ _ _ (Nat.le_refl _), List.take_length]

/-- Reading bytes outside both the window and the result. -/
theorem readBytes_putWindow_outside (m : Memory) (w : Window) (bs : List Byte) (d a n : Nat)
    (h : a + n ≤ w.base ∨ w.base + w.size ≤ a ∧ w.base + bs.length ≤ a) :
    (m.putWindow w bs d).readBytes a n = m.readBytes a n :=
  readBytes_congr fun k _ => byteAt_putWindow_outside m w bs d (a + k) (by omega)

theorem putWindow_wf {m : Memory} (h : m.wf) (w : Window) (bs : List Byte) (d : Nat) : (m.putWindow w bs d).wf :=
  setBytes_wf (forget_wf h _ _ _) _ _

/-- Where the cells of a memory with a result written lie. -/
theorem mem_putWindow {m : Memory} {w : Window} {bs : List Byte} {d : Nat} {c : Host.Cell}
    (h : c ∈ m.putWindow w bs d) : (∃ b ∈ m, b.1 = c.1) ∨ w.base ≤ c.1 ∧ c.1 < w.base + bs.length :=
  (mem_setBytes h).imp mem_forget id

/-- A read stops only at a byte in its range that holds no value. -/
theorem readBytes_error {m : Memory} {a n : Nat} {f : Fault} (h : m.readBytes a n = .error f) :
    ∃ k, k < n ∧ m.byteAt (a + k) = none ∧ f = .unwrittenByte (a + k) := by
  induction n generalizing a with
  | zero => simp [Memory.readBytes] at h
  | succ n ih =>
    simp only [Memory.readBytes] at h
    split at h
    · rename_i hb
      exact ⟨0, by omega, by simpa using hb, by simpa using h.symm⟩
    · split at h
      · rename_i hr
        cases h
        obtain ⟨k, hk, hb, hf⟩ := ih hr
        exact ⟨k + 1, by omega, by rwa [show a + (k + 1) = a + 1 + k by omega],
          by rwa [show a + (k + 1) = a + 1 + k by omega]⟩
      · cases h

/-- A read over a byte that holds no value stops. -/
theorem readBytes_fault {m : Memory} {a n k : Nat} (hk : k < n) (h : m.byteAt (a + k) = none) :
    ∃ x, m.readBytes a n = .error (.unwrittenByte x) := by
  cases hr : m.readBytes a n with
  | error f =>
    obtain ⟨j, -, -, rfl⟩ := readBytes_error hr
    exact ⟨_, rfl⟩
  | ok bs =>
    obtain ⟨hl, hb⟩ := (readBytes_ok_iff m a n bs).1 hr
    have := hb k hk
    rw [h] at this
    simp [show k < bs.length by omega] at this

/-- Two canonical memories that read alike everywhere are equal. -/
theorem memory_ext {m n : Memory} (hm : m.wf) (hn : n.wf) (h : ∀ a, m.byteAt a = n.byteAt a) : m = n := by
  have sub : ∀ {m n : Memory}, m.wf → (∀ a, m.byteAt a = n.byteAt a) → ∀ c ∈ m, c ∈ n := by
    intro m n hm h c hc
    exact mem_of_byteAt ((h c.1).symm.trans (byteAt_of_mem hm hc))
  have nodup : ∀ {m : Memory}, m.wf → m.Nodup := fun hm => hm.imp fun hlt heq => by
    rw [heq] at hlt
    omega
  have perm : m.Perm n := (List.perm_ext_iff_of_nodup (nodup hm) (nodup hn)).2 fun c =>
    ⟨sub hm h c, sub hn (fun a => (h a).symm) c⟩
  refine perm.eq_of_pairwise (fun a b _ _ h1 h2 => ?_) hm hn
  exact absurd h1 (by omega)

end Sys2Proof.Machine
end

