-- ==== Sys2Proof/Laws/PerInstr.lean ====
section
/-! SUPPORT. Statements about every command, one lemma per constructor. -/

namespace Sys2Proof.Laws.EncodeDecode

/-- A well-formed command's word decodes to it (30_encoding.md R105, R107). -/
def Statement (i : Instr) : Prop := i.wellFormed = true → decode (encode i) = .ok i

theorem nop : Statement .nop := fun _ => by decide

theorem gfMul : Statement .gfMul := fun _ => by decide

theorem gfMod : Statement .gfMod := fun _ => by decide

theorem gfDiv : Statement .gfDiv := fun _ => by decide

theorem gfGcd : Statement .gfGcd := fun _ => by decide

theorem gfInv : Statement .gfInv := fun _ => by decide

theorem gfMulmod : Statement .gfMulmod := fun _ => by decide

theorem sbox : Statement .sbox := fun _ => by decide

theorem invSbox : Statement .invSbox := fun _ => by decide

theorem mixcol : Statement .mixcol := fun _ => by decide

theorem invMixcol : Statement .invMixcol := fun _ => by decide

theorem altMixcol : Statement .altMixcol := fun _ => by decide

theorem invAltMixcol : Statement .invAltMixcol := fun _ => by decide

theorem rcon : Statement .rcon := fun _ => by decide

theorem keyExpand : Statement .keyExpand := fun _ => by decide

theorem keyExpandRot : Statement .keyExpandRot := fun _ => by decide

theorem keyExpandNorot : Statement .keyExpandNorot := fun _ => by decide

theorem subBytes : Statement .subBytes := fun _ => by decide

theorem invSubBytes : Statement .invSubBytes := fun _ => by decide

theorem shiftRows : Statement .shiftRows := fun _ => by decide

theorem invShiftRows : Statement .invShiftRows := fun _ => by decide

theorem mixColumns : Statement .mixColumns := fun _ => by decide

theorem invMixColumns : Statement .invMixColumns := fun _ => by decide

theorem altMixColumns : Statement .altMixColumns := fun _ => by decide

theorem invAltMixColumns : Statement .invAltMixColumns := fun _ => by decide

theorem addRoundKey (sel : Sched) (rnd : Nat) : Statement (.addRoundKey sel rnd) := by
  intro h
  have h : rnd < 16 := by simpa [Instr.wellFormed] using h
  cases sel <;> interval_cases rnd <;> decide

theorem encryptBlock : Statement .encryptBlock := fun _ => by decide

theorem decryptBlock : Statement .decryptBlock := fun _ => by decide

theorem ecbEncrypt : Statement .ecbEncrypt := fun _ => by decide

theorem ecbDecrypt : Statement .ecbDecrypt := fun _ => by decide

theorem pad : Statement .pad := fun _ => by decide

theorem configure : Statement .configure := fun _ => by decide

end Sys2Proof.Laws.EncodeDecode
end

