-- ==== Sys2Proof/Tests/Slice0.lean ====
section
/-! SUPPORT. Tests: the well-formedness smoke, decode words, one or two small vectors for each command, and for each
statement with hypotheses a named witness. Expected values are those of spec/95_test_vectors.md and of the rules'
own examples; each test names its source. -/

namespace Sys2Proof.Tests

open Sys2Proof Sys2Proof.Machine Sys2Proof.Statements

/-! Helpers. -/

/-- The state a result goes on with; the reset state where it stops. -/
def after (r : Result) : State :=
  match r with
  | .next t => t
  | _ => State.reset

/-- Whether a result goes on. -/
def goesOn (r : Result) : Bool :=
  match r with
  | .next _ => true
  | _ => false

/-- The fault a result stops with. -/
def faultOf (r : Result) : Option Fault :=
  match r with
  | .fault f => some f
  | _ => none

theorem goesOn_eq {r : Result} (h : goesOn r = true) : r = .next (after r) := by
  cases r <;> simp_all [goesOn, after]

/-- The bytes read, or none. -/
def bytes (s : State) (a n : Nat) : Option (List Byte) := (s.mem.readBytes a n).toOption

/-- The reset state with operands. -/
def ops (a b m : Word) : State := { State.reset with opa := a, opb := b, opm := m }

/-- The reset state with a block in STATE. -/
def block (bs : List Byte) : State := { State.reset with mem := cellsFrom 0x040 bs }

/-- The reset state with a key. -/
def keyed (k : List Byte) : State := { State.reset with mem := cellsFrom 0x100 k, keyLen := BitVec.ofNat 32 k.length }

/-- A key and a message. -/
def messaged (k p : List Byte) : State :=
  { State.reset with
    mem := cellsFrom 0x100 k ++ cellsFrom 0x10000 p
    keyLen := BitVec.ofNat 32 k.length
    inLen := BitVec.ofNat 32 p.length }

/-- The schedules of 95_test_vectors.md 4.1 with a block in STATE. -/
def scheduled (bs : List Byte) : State :=
  let s := after (exec .keyExpand (keyed [0, 0]))
  s.setMem (cellsFrom 0x040 bs ++ s.mem)

/-- An idle CORE whose host has moves to make. -/
def idle (moves : List HostMove) : State := { State.reset with host := moves }

/-- A CORE with a pending NOP that lets d host moves pass. -/
def waiting (d : Nat) (moves : List HostMove) : State := { State.reset.withFetchWord 32 0 with host := moves, delay := d }

/-- The bytes 00 01 .. -/
def counting (n : Nat) : List Byte := (List.range n).map (BitVec.ofNat 8)

/-! Well-formedness: its one check is that RND has four bits (30_encoding.md R102). -/

theorem test_wellFormed_refuses_rnd16 : (Instr.addRoundKey .a 16).wellFormed = false := by decide

theorem test_wellFormed_admits_rnd15 : (Instr.addRoundKey .b 15).wellFormed = true := by decide

/-! Decoding: words written bit by bit from 30_encoding.md R101, R102 and R105, one per family. -/

theorem test_decode_nop : decode 0b00000000000000000000000000000000 = .ok .nop := by decide

theorem test_decode_gfMulmod : decode 0b00000000000000000000000000000110 = .ok .gfMulmod := by decide

theorem test_decode_invAltMixcol : decode 0b00000000000000000000000000010101 = .ok .invAltMixcol := by decide

theorem test_decode_rcon : decode 0b00000000000000000000000000010110 = .ok .rcon := by decide

theorem test_decode_keyExpandNorot : decode 0b00000000000000000000000000100010 = .ok .keyExpandNorot := by decide

theorem test_decode_invAltMixColumns : decode 0b00000000000000000000000000111000 = .ok .invAltMixColumns := by decide

theorem test_decode_decryptBlock : decode 0b00000000000000000000000000111011 = .ok .decryptBlock := by decide

theorem test_decode_addRoundKey_a_1 : decode 0b00000000000000010000000000111001 = .ok (.addRoundKey .a 1) := by decide

theorem test_decode_addRoundKey_b_15 : decode 0b00000000000011110000000100111001 = .ok (.addRoundKey .b 15) := by decide

theorem test_decode_ecbDecrypt : decode 0b00000000000000000000000001000001 = .ok .ecbDecrypt := by decide

theorem test_decode_pad : decode 0b00000000000000000000000001000010 = .ok .pad := by decide

theorem test_decode_configure : decode 0b00000000000000000000000001010000 = .ok .configure := by decide

/-- 30_encoding.md R106 (a), with the would-be chaining modes. -/
theorem test_decode_reserved : ∀ o ∈ [0x07, 0x0F, 0x17, 0x1F, 0x23, 0x30, 0x3C, 0x3F, 0x43, 0x45, 0x4F, 0x51, 0xFF],
    decode (BitVec.ofNat 32 o) = .error .reservedOpcode := by decide

/-- 30_encoding.md R106 (b), (c). -/
theorem test_decode_zero_bits : decode 0x00000100 = .error .formatNBits ∧ decode 0x80000042 = .error .formatNBits ∧
    decode 0x00000239 = .error .formatKBits ∧ decode 0x00100039 = .error .formatKBits := by decide

theorem test_decodeTableWord : decodeTableWord 32 0x000A0139 = some (.addRoundKey .b 10) ∧
    decodeTableWord 32 0x51 = none := by decide

/-! GF Engine: 95_test_vectors.md section 2. -/

/-- GF7. -/
theorem test_gfMul_full : let t := after (exec .gfMul (ops 0xFFFFFFFF 0xFFFFFFFF 0))
    t.res1 = 0x55555555 ∧ t.res0 = 0x55555555 := by decide +kernel

/-- GF8. -/
theorem test_gfMul_top : let t := after (exec .gfMul (ops 0x80000000 0x80000000 0))
    t.res1 = 0x40000000 ∧ t.res0 = 0 := by decide

/-- GF9. -/
theorem test_gfMod_product : let t := after (exec .gfMod (ops 0x2B79 0 0x11B))
    t.res0 = 0xC1 := by decide

/-- GF15. -/
theorem test_gfMod_x31 : let t := after (exec .gfMod (ops 0x80000000 0 3))
    t.res0 = 1 := by decide

/-- GF20. -/
theorem test_gfDiv_monomials : let t := after (exec .gfDiv (ops 0x2B79 0 0x11B))
    t.res0 = 0x28 := by decide

/-- GF26. -/
theorem test_gfDiv_long : let t := after (exec .gfDiv (ops 0xFFFFFFFF 0 0x133))
    t.res0 = 0x00EDA79D := by decide

/-- GF28. -/
theorem test_gfGcd_order : let t := after (exec .gfGcd (ops 0x11B 0x53 0))
    t.res0 = 0x3D ∧ t.res1 = 0xCA ∧ t.res2 = 1 := by decide

/-- GF30. -/
theorem test_gfGcd_zero : let t := after (exec .gfGcd (ops 0 7 0))
    t.res0 = 0 ∧ t.res1 = 1 ∧ t.res2 = 7 := by decide

/-- GF36. -/
theorem test_gfInv_reduces : let t := after (exec .gfInv (ops 0x148 0 0x11B))
    t.res0 = 0xCA ∧ t.res1 = 0x3D ∧ t.res2 = 1 := by decide

/-- GF45. -/
theorem test_gfInv_none : let t := after (exec .gfInv (ops 0x0B 0 0x133))
    t.res0 = 1 ∧ t.res1 = 0 ∧ t.res2 = 0x0B ∧ t.status.err = .ok := by decide

/-- GF50. -/
theorem test_gfMulmod_full : let t := after (exec .gfMulmod (ops 0xFFFFFFFF 0xFFFFFFFF 0x11B))
    t.res0 = 0xB2 := by decide +kernel

/-- 40_gf_engine.md R130. -/
theorem test_gfMulmod_zero_modulus : let t := after (exec .gfMulmod (ops 2 0x80 0))
    t.status.err = .zeroModulus ∧ t.res0 = 0 ∧ t.status.errSticky = true := by decide

/-! Cipher Tables: 95_test_vectors.md section 3. -/

/-- T8. -/
theorem test_sbox_ignores_high_bits : let t := after (exec .sbox (ops 0x153 0 0))
    t.res0 = 0xED := by decide

/-- T13. -/
theorem test_invSbox : let t := after (exec .invSbox (ops 0x16 0 0))
    t.res0 = 0xFF := by decide

/-- M1. -/
theorem test_mixcol : let t := after (exec .mixcol (ops 0x455313DB 0 0))
    t.res0 = 0xBCA14D8E := by decide

/-- M7. -/
theorem test_invMixcol : let t := after (exec .invMixcol (ops 0x00000080 0 0))
    t.res0 = 0xF7DAEC41 := by decide

/-- M8. -/
theorem test_altMixcol : let t := after (exec .altMixcol (ops 0x80000000 0 0))
    t.res0 = 0x33B38080 := by decide

/-- M6. -/
theorem test_invAltMixcol : let t := after (exec .invAltMixcol (ops 0x4C31262D 0 0))
    t.res0 = 0x862800D8 := by decide

/-- T19. -/
theorem test_rcon_last : let t := after (exec .rcon (ops 14 0 0))
    t.res0 = 0x4D ∧ t.status.err = .ok := by decide

/-- 41_tables_operators.md R173. -/
theorem test_rcon_range : let t := after (exec .rcon (ops 15 0 0))
    t.res0 = 0 ∧ t.status.err = .range := by decide

/-! Control. -/

/-- 45_control.md R270, the example. -/
theorem test_nop_clears_err : let t := after (exec .nop (after (exec .gfMod (ops 1 0 0))))
    t.status.err = .ok ∧ t.status.done = true ∧ t.status.errSticky = true := by decide

/-- 45_control.md R272, the examples under the default NR_TABLE. -/
theorem test_configure_default (h : nrTable = nrDefault) :
    (after (exec .configure { State.reset with cfgReq := 0x00C00100 })).cfg.word = 0x00000E68 ∧
    (after (exec .configure { State.reset with cfgReq := 0x01000081 })).cfg.word = 0x00000E84 := by
  simp only [exec, execConfigure, complete, after, requestedCfg, h]
  decide

/-- The same whatever the table: the reset configuration. -/
theorem test_configure : (after (exec .configure { State.reset with cfgReq := 0x00800080 })).cfg.word = 0x00000A44 := by
  decide

/-! Key Schedule: 95_test_vectors.md section 4. -/

/-- 4.1, words 40 and 43 of both schedules. -/
theorem test_keyExpand : let t := after (exec .keyExpand (keyed [0, 0]))
    bytes t 0x2A0 4 = some [0xb4, 0xef, 0x5b, 0xcb] ∧ bytes t 0x2AC 4 = some [0x6f, 0x8f, 0x18, 0x8e] ∧
    bytes t 0x4A0 4 = some [0x58, 0xeb, 0xeb, 0xeb] ∧ bytes t 0x4AC 4 = some [0xb7, 0xd5, 0xd5, 0xd5] := by decide +kernel

/-- 4.3, an odd key length. -/
theorem test_keyExpand_odd : let t := after (exec .keyExpand (keyed [0xaa, 0xbb, 0xcc]))
    bytes t 0x210 4 = some [0x07, 0x06, 0x06, 0x06] ∧ bytes t 0x410 4 = some [0x50, 0x87, 0x51, 0x87] := by decide +kernel

/-- 4.4. -/
theorem test_keyExpandRot : let t := after (exec .keyExpandRot (keyed [0x2b, 0x7e, 0x15, 0x16, 0x28, 0xae, 0xd2, 0xa6, 0xab, 0xf7, 0x15, 0x88, 0x09, 0xcf, 0x4f, 0x3c]))
    bytes t 0x2AC 4 = some [0xb6, 0x63, 0x0c, 0xa6] ∧ t.status.ksaValid = true ∧ t.status.ksbValid = false := by decide +kernel

/-- 4.4. -/
theorem test_keyExpandNorot : let t := after (exec .keyExpandNorot (keyed [0x2b, 0x7e, 0x15, 0x16, 0x28, 0xae, 0xd2, 0xa6, 0xab, 0xf7, 0x15, 0x88, 0x09, 0xcf, 0x4f, 0x3c]))
    bytes t 0x4AC 4 = some [0x28, 0x9e, 0xd2, 0x79] ∧ t.status.ksbValid = true ∧ t.status.ksaValid = false := by decide +kernel

/-! Block Transform: 95_test_vectors.md section 5. -/

/-- The columns of B5 to B8. -/
def mixBlock : List Byte := [0xdb, 0x13, 0x53, 0x45, 0xf2, 0x0a, 0x22, 0x5c, 0x01, 0x01, 0x01, 0x01, 0x2d, 0x26, 0x31, 0x4c]

/-- B1. -/
theorem test_subBytes : bytes (after (exec .subBytes (block (counting 16)))) 0x040 16 =
    some [0x63, 0x7c, 0x77, 0x7b, 0xf2, 0x6b, 0x6f, 0xc5, 0x30, 0x01, 0x67, 0x2b, 0xfe, 0xd7, 0xab, 0x76] := by decide +kernel

/-- B2. -/
theorem test_invSubBytes : bytes (after (exec .invSubBytes (block (counting 16)))) 0x040 16 =
    some [0x52, 0x09, 0x6a, 0xd5, 0x30, 0x36, 0xa5, 0x38, 0xbf, 0x40, 0xa3, 0x9e, 0x81, 0xf3, 0xd7, 0xfb] := by decide +kernel

/-- B3. -/
theorem test_shiftRows : bytes (after (exec .shiftRows (block (counting 16)))) 0x040 16 =
    some [0x00, 0x05, 0x0a, 0x0f, 0x04, 0x09, 0x0e, 0x03, 0x08, 0x0d, 0x02, 0x07, 0x0c, 0x01, 0x06, 0x0b] := by decide +kernel

/-- B4. -/
theorem test_invShiftRows : bytes (after (exec .invShiftRows (block (counting 16)))) 0x040 16 =
    some [0x00, 0x0d, 0x0a, 0x07, 0x04, 0x01, 0x0e, 0x0b, 0x08, 0x05, 0x02, 0x0f, 0x0c, 0x09, 0x06, 0x03] := by decide +kernel

/-- B5. -/
theorem test_mixColumns : bytes (after (exec .mixColumns (block mixBlock))) 0x040 16 =
    some [0x8e, 0x4d, 0xa1, 0xbc, 0x9f, 0xdc, 0x58, 0x9d, 0x01, 0x01, 0x01, 0x01, 0x4d, 0x7e, 0xbd, 0xf8] := by decide +kernel

/-- B6. -/
theorem test_invMixColumns : bytes (after (exec .invMixColumns (block mixBlock))) 0x040 16 =
    some [0x32, 0xa4, 0x1d, 0x55, 0xae, 0xc3, 0x69, 0x82, 0x01, 0x01, 0x01, 0x01, 0xa0, 0x50, 0x50, 0xd6] := by decide +kernel

/-- B7. -/
theorem test_altMixColumns : bytes (after (exec .altMixColumns (block mixBlock))) 0x040 16 =
    some [0xa6, 0x4d, 0xa1, 0x94, 0xb7, 0xdc, 0x58, 0xb5, 0x01, 0x01, 0x01, 0x01, 0x4d, 0x7e, 0xbd, 0xf8] := by decide +kernel

/-- B8. -/
theorem test_invAltMixColumns : bytes (after (exec .invAltMixColumns (block mixBlock))) 0x040 16 =
    some [0xba, 0x7c, 0xbd, 0xa5, 0x5e, 0x4b, 0xb1, 0x22, 0x01, 0x01, 0x01, 0x01, 0xd8, 0x00, 0x28, 0x86] := by decide +kernel

/-- B11: the row offsets are 0, 1, 2, 3 for NB = 8 too (43_block_transform.md R212). -/
theorem test_shiftRows_256 :
    bytes (after (exec .shiftRows { block (counting 32) with cfg := ⟨.bits256, .bits128, 14⟩ })) 0x040 8 =
      some [0x00, 0x05, 0x0a, 0x0f, 0x04, 0x09, 0x0e, 0x13] := by decide +kernel

/-- B14. -/
theorem test_addRoundKey_a : bytes (after (exec (.addRoundKey .a 1) (scheduled (counting 16)))) 0x040 16 =
    some [0x62, 0x62, 0x61, 0x60, 0x66, 0x66, 0x65, 0x64, 0x6a, 0x6a, 0x69, 0x68, 0x6e, 0x6e, 0x6d, 0x6c] := by decide +kernel

/-- B15. -/
theorem test_addRoundKey_b : bytes (after (exec (.addRoundKey .b 2) (scheduled (counting 16)))) 0x040 16 =
    some [0xca, 0x99, 0x9a, 0x9b, 0xac, 0xfe, 0xfd, 0xfc, 0xc2, 0x91, 0x92, 0x93, 0xa4, 0xf6, 0xf5, 0xf4] := by decide +kernel

/-- B17. -/
theorem test_encryptBlock : bytes (after (exec .encryptBlock (scheduled (List.replicate 16 0)))) 0x040 16 =
    some [0x9a, 0x2b, 0x7b, 0x77, 0x0d, 0x75, 0xd3, 0xec, 0x1a, 0xcb, 0x4d, 0x00, 0xf2, 0x65, 0x48, 0x90] := by decide +kernel

/-- B19. -/
theorem test_decryptBlock : bytes (after (exec .decryptBlock (scheduled (List.replicate 16 0)))) 0x040 16 =
    some [0x3f, 0xfa, 0x0c, 0x77, 0x85, 0x7c, 0x51, 0xa5, 0xfd, 0xb7, 0xc2, 0x58, 0xd2, 0x66, 0x8b, 0x68] := by decide +kernel

/-! ECB Framing: 95_test_vectors.md section 6. -/

/-- P1. -/
theorem test_pad : let t := after (exec .pad (messaged [] [1, 2, 3, 4, 5]))
    t.outLen = 32 ∧ bytes t 0x20000 32 =
      some ([1, 2, 3, 4, 5] ++ List.replicate 11 0 ++ [0x0b] ++ List.replicate 15 0) := by decide +kernel

/-- P4: NB = 6. -/
theorem test_pad_192 :
    let t := after (exec .pad { messaged [] (List.replicate 7 0xaa) with cfg := ⟨.bits192, .bits128, 12⟩ })
    t.outLen = 48 ∧ bytes t 0x20018 2 = some [0x11, 0] := by decide +kernel

/-- E1. -/
theorem test_ecbEncrypt : let t := after (exec .ecbEncrypt (messaged [0, 0] [1, 2, 3, 4, 5]))
    t.outLen = 32 ∧ bytes t 0x20000 32 =
      some ([0x0f, 0xbb, 0x4e, 0x0d, 0x33, 0x0e, 0xbb, 0x22, 0x58, 0x3e, 0x4b, 0x7a, 0x79, 0xb9, 0x4a, 0x4d] ++
        [0x8b, 0xfd, 0xd7, 0xc0, 0x5e, 0x7a, 0x01, 0xec, 0x40, 0x6b, 0x60, 0x60, 0x9a, 0x91, 0x31, 0xa7]) := by decide +kernel

/-- E7: a marker of 0x3f is reduced modulo T. -/
theorem test_ecbDecrypt : let t := after (exec .ecbDecrypt (messaged [0, 0] (List.replicate 32 0)))
    t.outLen = 1 ∧ bytes t 0x20000 1 = some [0x3f] := by decide +kernel

/-- E11: pass-through of 31 bytes. -/
theorem test_ecbDecrypt_pass : let t := after (exec .ecbDecrypt (messaged [0, 0] (counting 31)))
    t.outLen = 31 ∧ bytes t 0x20000 31 = some (counting 31) ∧ t.status.ksaValid = true := by decide +kernel

/-! The step, the bus and the script. -/

/-- The first step after reset runs the command placed there. -/
theorem test_step_runs_pad : (after (step (State.reset.withFetchWord 32 0x42))).outLen = 16 := by decide

/-- The host's EXEC NOP (30_encoding.md R109): two moves, the first to CMD. -/
theorem test_script_exec : (Line.exec .nop).moves = [.write 0x004 0, .poll] := by decide

/-- Packing of WRBYTES, last group padded (30_encoding.md R109, 20_memory.md R71). -/
theorem test_script_wrBytes : (Line.wrBytes (.keyBuf 0) [0x0f, 0xbb, 0x4e, 0x0d, 0x33]).moves =
    [.write 0x100 0x0D4EBB0F, .write 0x104 0x00000033] := by decide

/-- ADD_ROUND_KEY in text (30_encoding.md R108). -/
theorem test_script_text : commandText (.addRoundKey .b 10) = "ADD_ROUND_KEY B, 10" := by decide +kernel

theorem test_reset_memory : State.reset.mem.wf ∧ State.reset.mem = [] := by decide

/-! Witnesses: each shows concrete values that meet all hypotheses of the statement (or clause) it is named after. -/

theorem witness_OpcodeMapDecodes : (0 : Nat) < 16 ∧ (15 : Nat) < 16 := by decide

theorem witness_IllegalWordsRaise : ∀ w ∈ [0x07, 0xFF, 0x100, 0x239, 0x80000039],
    (decode (BitVec.ofNat 32 w)).toOption = none ∧
    (State.reset.withFetchWord 32 w).pending = some (BitVec.ofNat 32 w) ∧
    (State.reset.withFetchWord 32 w).delay = 0 := by decide

theorem witness_StepRunsDecodedCommand :
    ((waiting 0 [.poll]).pending = some 0 ∧ (waiting 0 [.poll]).delay = 0 ∧ decode 0 = .ok .nop) ∧
    ((waiting 3 []).pending = some 0 ∧ (waiting 3 []).host = []) := by decide

theorem witness_AnyCommandWordIsAccepted :
    ((idle [.write 0x004 0xFF]).host = .write 0x004 0xFF :: [] ∧ (idle [.write 0x004 0xFF]).status.busy = false ∧
      (idle [.write 0x004 0xFF]).pending = none) ∧
    ((waiting 1 [.write 0x004 0]).host = .write 0x004 0 :: [] ∧ (waiting 1 [.write 0x004 0]).status.busy = true ∧
      (waiting 1 [.write 0x004 0]).delay ≠ 0) := by decide

theorem witness_CompletionClosesCommand : exec .nop State.reset = .next (after (exec .nop State.reset)) :=
  goesOn_eq (by decide)

theorem witness_IrqFollowsDoneAndEnable :
    exec .nop { State.reset with ie := true } = .next (after (exec .nop { State.reset with ie := true })) :=
  goesOn_eq (by decide)

theorem witness_ErrorsArePrecise : exec .ecbEncrypt State.reset = .next (after (exec .ecbEncrypt State.reset)) ∧
    (after (exec .ecbEncrypt State.reset)).status.err ≠ .ok := ⟨goesOn_eq (by decide), by decide⟩

theorem witness_FirstCauseIsReported :
    exec .nop State.reset = .next (after (exec .nop State.reset)) ∧
    errorOf .gfMod State.reset = .zeroModulus ∧ errorOf .rcon (ops 15 0 0) = .range ∧
    errorOf .keyExpand State.reset = .keyLength ∧ errorOf .keyExpandRot (keyed []) = .keyLength ∧
    errorOf .keyExpand { State.reset with keyLen := 65 } = .length ∧
    errorOf (.addRoundKey .b 15) State.reset = .noSchedule ∧
    errorOf .ecbDecrypt { messaged [0] [1, 2, 3] with keyLen := 1 } = .keyLength ∧
    (waiting 0 []).delay = 0 := ⟨goesOn_eq (by decide), by decide⟩

theorem witness_CommandsKeepTheirInputs :
    exec .keyExpand (keyed [0, 0]) = .next (after (exec .keyExpand (keyed [0, 0]))) ∧
    inRange 0x100 64 0x100 ∧ inRange 0x100 64 0x13F ∧ inRange 0x10000 bufBytes 0x10000 ∧
    0x040 + 4 * State.reset.cfg.nbWords ≤ 0x050 := by
  refine ⟨goesOn_eq (by decide +kernel), ?_, ?_, ?_, by decide⟩
  all_goals unfold inRange
  · decide
  · decide
  · unfold bufBytes Config.bufBytes; omega

/-- A pending CONFIGURE that changes CFG, and a reset that does. -/
def configuring : State := { State.reset.withFetchWord 32 0x50 with cfgReq := 0x01000100 }

def resetting : State := { idle [.reset] with cfg := ⟨.bits256, .bits256, 14⟩ }

theorem witness_OnlyConfigureChangesCfg :
    (step configuring = .next (after (step configuring)) ∧ (after (step configuring)).cfg ≠ configuring.cfg) ∧
    (step resetting = .next (after (step resetting)) ∧ (after (step resetting)).cfg ≠ resetting.cfg) :=
  ⟨⟨goesOn_eq (by decide), by decide⟩, ⟨goesOn_eq (by decide), by decide⟩⟩

theorem witness_ValidityBitsFollowTheRule :
    exec .configure State.reset = .next (after (exec .configure State.reset)) ∧
    exec .keyExpandRot (keyed [1]) = .next (after (exec .keyExpandRot (keyed [1]))) ∧
    resetting.sequencerWord = none ∧ step resetting = .next (after (step resetting)) :=
  ⟨goesOn_eq (by decide), goesOn_eq (by decide +kernel), by decide, goesOn_eq (by decide)⟩

theorem witness_GfCommandResults : (ops 1 2 0x11B).opm ≠ 0 ∧ (ops 1 2 0).opm = 0 := by decide

theorem witness_MultyIsCarrylessProduct : (0xFFFFFFFF : Nat) < 2 ^ 32 := by decide

theorem witness_MultyRingLaws : (1 : Nat) ≠ 0 ∧ (0xFFFFFFFF : Nat) ≠ 0 := by decide

theorem witness_ModAndDividingFollowTheirLoops :
    ((0x11B : Nat) ≠ 0 ∧ (0x11B : Nat) ≠ 0 ∧ bitlen 0x11B ≤ bitlen 0x11B) ∧
    ((0x11B : Nat) ≠ 0 ∧ bitlen 0xFF < bitlen 0x11B) ∧ ((1 : Nat) ≠ 0 ∧ (0xFFFFFFFF : Nat) < 2 ^ 32) := by decide

theorem witness_ModLaws : (0x11B : Nat) ≠ 0 ∧ bitlen 0xFF < bitlen 0x11B := by decide

theorem witness_DivisionLaw : (0x11B : Nat) ≠ 0 ∧ (0x2B79 : Nat) = multy 0x28 0x11B ^^^ 0xC1 ∧
    bitlen 0xC1 < bitlen 0x11B := by decide

theorem witness_AdvancedGcdIsExtendedEuclid : (6 : Nat) ≠ 0 ∧ gfDivides 3 6 ∧ gfDivides 3 12 :=
  ⟨by decide, ⟨2, by decide⟩, ⟨4, by decide⟩⟩

theorem witness_GcdResultsFitTheRegisters : (0 : Nat) < 2 ^ 32 ∧ (0xFFFFFFFF : Nat) < 2 ^ 32 := by decide

theorem witness_MultiplicativeReverseInverts :
    ((0x11B : Nat) ≠ 0 ∧ (multiplicativeReverse 0x53 0x11B).g = 1 ∧ (0x11B : Nat) ≠ 1) ∧
    ((1 : Nat) ≠ 0 ∧ (multiplicativeReverse 5 1).g = 1) ∧ ((0x133 : Nat) ≠ 0 ∧ gfMod 0x133 0x133 = 0) := by decide

theorem witness_TableCommandResults : ((1 : Nat) ≤ 1 ∧ (14 : Nat) ≤ 14) ∧ (ops 0 0 0).opa.toNat ≤ 14 ∧ (ops 14 0 0).opa.toNat ≤ 14 ∧
    14 < (ops 15 0 0).opa.toNat := by decide

theorem witness_ColumnOperators : ∀ m ∈ [(0x11B : Nat), 0x133], m = 0x11B ∨ m = 0x133 := by decide

theorem witness_NopOnlyCompletes : (0xFFFFFF00 : Word).toNat % 2 ^ 8 = 0 ∧ (0xFFFFFF00 : Word).toNat / 2 ^ 8 ≠ 0 := by
  decide

/-- The reset CFG and the one with the longest schedule. -/
theorem witness_ExpandFollowsTheRecurrence :
    (State.reset.cfg.legal ∧ ([0] : List Byte) ≠ []) ∧ (4 < 44 ∧ (4 : Nat) % 4 = 0 ∧ (43 : Nat) % 4 ≠ 0) ∧
    (⟨.bits256, .bits128, BitVec.ofNat 8 (nrTable .bits128 .bits256)⟩ : Cfg).legal := by
  refine ⟨?_, by decide, rfl⟩
  unfold Cfg.legal; decide

theorem witness_KeyExpandResult :
    State.reset.keyLen.toNat < 2 ∧ 64 < ({ State.reset with keyLen := 65 } : State).keyLen.toNat ∧
    2 ≤ (keyed [0, 0]).keyLen.toNat ∧ (keyed [0, 0]).keyLen.toNat ≤ 64 ∧ (keyed [0, 0]).cfg.legal ∧
    (keyed [0, 0]).mem.readBytes 0x100 (keyed [0, 0]).keyLen.toNat = .ok [0, 0] := by
  unfold Cfg.legal; decide

theorem witness_WholeKeyCommandResults :
    State.reset.keyLen.toNat = 0 ∧ 64 < ({ State.reset with keyLen := 65 } : State).keyLen.toNat ∧
    1 ≤ (keyed [7]).keyLen.toNat ∧ (keyed [7]).keyLen.toNat ≤ 64 ∧ (keyed [7]).cfg.legal ∧
    (keyed [7]).mem.readBytes 0x100 (keyed [7]).keyLen.toNat = .ok [7] := by
  unfold Cfg.legal; decide

theorem witness_ShiftRowsEntries : ∀ n ∈ [4, 6, 8],
    (let m := List.replicate n Quad.zero; m.length = 4 ∨ m.length = 6 ∨ m.length = 8) := by decide

theorem witness_LayerCommandResults : (0x00000038, Instr.invAltMixColumns, invAltMixColumns) ∈ layerCommands ∧
    readColumns (block (counting 16)) = .ok (load (counting 16)) ∧ 3 < (load (counting 16)).length :=
  ⟨by simp [layerCommands], by decide, by decide⟩

theorem witness_AddRoundKeyResult :
    State.reset.status.valid .a = false ∧ State.reset.status.valid .b = false ∧
    (scheduled (counting 16)).status.valid .b = true ∧ (scheduled (counting 16)).cfg.nr.toNat < 11 ∧
    10 ≤ (scheduled (counting 16)).cfg.nr.toNat ∧
    readSchedule .a (scheduled (counting 16)) = .ok (expand State.reset.cfg [0] true) ∧
    readColumns (scheduled (counting 16)) = .ok (load (counting 16)) := by decide +kernel

theorem witness_WholeBlockResults :
    State.reset.status.ksaValid = false ∧
    (scheduled (counting 16)).status.ksaValid = true ∧ (scheduled (counting 16)).status.ksbValid = true ∧
    readSchedule .a (scheduled (counting 16)) = .ok (expand State.reset.cfg [0] true) ∧
    readSchedule .b (scheduled (counting 16)) = .ok (expand State.reset.cfg [0] false) ∧
    readColumns (scheduled (counting 16)) = .ok (load (counting 16)) := by decide +kernel

theorem witness_PipelinesFollowTheirRounds : (1 : Nat) ≤ 2 ∧
    (List.replicate 12 Quad.zero).length = (2 + 1) * 4 ∧ (List.replicate 16 (0 : Byte)).length = 4 * 4 := by decide

theorem witness_BlockPipelinesInvert : (List.replicate 4 Quad.zero).length = (0 + 1) * 4 ∧
    (List.replicate 120 Quad.zero).length = (14 + 1) * 8 ∧ (List.replicate 32 (0 : Byte)).length = 4 * 8 := by decide

theorem witness_EncryptThenDecryptRestoresMemory :
    let s := scheduled (counting 16)
    (exec .encryptBlock s = .next (after (exec .encryptBlock s)) ∧ (after (exec .encryptBlock s)).status.err = .ok) ∧
    (exec .decryptBlock s = .next (after (exec .decryptBlock s)) ∧ (after (exec .decryptBlock s)).status.err = .ok) :=
  ⟨⟨goesOn_eq (by decide +kernel), by decide +kernel⟩, ⟨goesOn_eq (by decide +kernel), by decide +kernel⟩⟩

theorem witness_PadLayout : 0 < 1 ∧ 32 ≤ 32 ∧ (4 : Nat) < (counting 5).length := by decide

/-- A message of n bytes is within BUF_BYTES for every n up to 96, and 0xFFFFFFFF is beyond it. -/
theorem bufBytes_bounds : 96 ≤ bufBytes ∧ bufBytes < 0xFFFFFFFF := by
  unfold bufBytes Config.bufBytes; omega

theorem witness_PadCommandResult :
    bufBytes < ({ State.reset with inLen := 0xFFFFFFFF } : State).inLen.toNat ∧
    (messaged [] (counting 5)).inLen.toNat ≤ bufBytes ∧
    (messaged [] (counting 5)).mem.readBytes 0x10000 (messaged [] (counting 5)).inLen.toNat = .ok (counting 5) :=
  ⟨bufBytes_bounds.2, Nat.le_trans (by decide) bufBytes_bounds.1, by decide⟩

theorem witness_EcbEncryptResult :
    State.reset.keyLen.toNat < 2 ∧ 64 < ({ State.reset with keyLen := 65 } : State).keyLen.toNat ∧
    (2 ≤ (keyed [0, 0]).keyLen.toNat ∧ bufBytes < ({ keyed [0, 0] with inLen := 0xFFFFFFFF } : State).inLen.toNat) ∧
    (messaged [0, 0] (counting 5)).inLen.toNat ≤ bufBytes ∧ (messaged [0, 0] (counting 5)).cfg.legal ∧
    (messaged [0, 0] (counting 5)).mem.readBytes 0x100 2 = .ok [0, 0] ∧
    (messaged [0, 0] (counting 5)).mem.readBytes 0x10000 5 = .ok (counting 5) :=
  ⟨by decide, by decide, ⟨by decide, bufBytes_bounds.2⟩, Nat.le_trans (by decide) bufBytes_bounds.1,
    by unfold Cfg.legal; decide, by decide, by decide⟩

/-- Below two blocks, two whole blocks, and 33 bytes. -/
theorem witness_EcbDecryptResult :
    (messaged [0, 0] (counting 31)).inLen.toNat < 2 * (4 * State.reset.cfg.nbWords) ∧
    (messaged [0, 0] (counting 32)).inLen.toNat % (4 * State.reset.cfg.nbWords) = 0 ∧
    (messaged [0, 0] (counting 32)).inLen.toNat ≤ bufBytes ∧
    (messaged [0, 0] (counting 32)).mem.readBytes 0x100 2 = .ok [0, 0] ∧
    (messaged [0, 0] (counting 32)).mem.readBytes 0x10000 32 = .ok (counting 32) ∧
    (2 * (4 * State.reset.cfg.nbWords) ≤ (messaged [0, 0] (counting 33)).inLen.toNat ∧
      (messaged [0, 0] (counting 33)).inLen.toNat % (4 * State.reset.cfg.nbWords) ≠ 0) :=
  ⟨by decide, by decide, Nat.le_trans (by decide) bufBytes_bounds.1, by decide, by decide, by decide⟩

theorem witness_BlocksAreIndependent : State.reset.cfg.legal ∧ ([0, 0] : List Byte) ≠ [] ∧
    1 < (padMessage (counting 5) 16).length / 16 ∧ 2 * 16 ≤ (counting 32).length ∧ (counting 32).length % 16 = 0 ∧
    0 < (ecbDecrypt State.reset.cfg [0, 0] (List.replicate 32 0)).length := by
  refine ⟨?_, by decide, by decide, by decide, by decide, by decide +kernel⟩
  unfold Cfg.legal; decide

/-- A message, its ciphertext, and the state that decrypts it. -/
def sender : State := messaged [0, 0] [1, 2, 3, 4, 5]

def sent : State := after (exec .ecbEncrypt sender)

def receiver : State := { messaged [0, 0] ((bytes sent 0x20000 32).getD []) with inLen := sent.outLen }

theorem witness_EcbRoundTrip :
    exec .ecbEncrypt sender = .next sent ∧ sent.status.err = .ok ∧ 1 ≤ sender.inLen.toNat ∧
    receiver.cfg = sender.cfg ∧ receiver.keyLen = sender.keyLen ∧ receiver.inLen = sent.outLen ∧
    (∀ a, a < sender.keyLen.toNat → receiver.mem.byteAt (0x100 + a) = sender.mem.byteAt (0x100 + a)) ∧
    sender.inLen.toNat ≤ bufBytes - 4 * sender.cfg.nbWords ∧
    (∀ a, a < sent.outLen.toNat → receiver.mem.byteAt (0x10000 + a) = sent.mem.byteAt (0x20000 + a)) :=
  ⟨goesOn_eq (by decide +kernel), by decide +kernel, by decide, by decide +kernel, by decide +kernel,
    by decide +kernel, by decide +kernel,
    Nat.le_sub_of_add_le (Nat.le_trans (by decide) bufBytes_bounds.1), by decide +kernel⟩

/-- A sender of n zero bytes under the key 00 00. -/
def longSender (n : Nat) : State :=
  { keyed [0, 0] with mem := (keyed [0, 0]).mem.setBytes 0x10000 (List.replicate n 0), inLen := BitVec.ofNat 32 n }

/-- What ECB_ENCRYPT leaves there. -/
def longSent (n : Nat) : State :=
  (((longSender n).putSchedules [0, 0]).putMessage
    (ecbEncrypt (longSender n).cfg [0, 0] (List.replicate n 0))).finish .ok

/-- The bytes of MSG_OUT copied to MSG_IN, with IN_LEN the ciphertext's length. -/
def longReceiver (n : Nat) : State :=
  { longSender n with
    mem := (longSender n).mem.setBytes 0x10000
      ((List.range (longSent n).outLen.toNat).map fun a => ((longSent n).mem.byteAt (0x20000 + a)).getD 0)
    inLen := (longSent n).outLen }

theorem longSender_inLen (n : Nat) (h : n ≤ bufBytes) : (longSender n).inLen.toNat = n := by
  have := bufBytes_bounds
  simp only [longSender, BitVec.toNat_ofNat]
  exact Nat.mod_eq_of_lt (by omega)

theorem longSender_sends (n : Nat) (h : n ≤ bufBytes) : exec .ecbEncrypt (longSender n) = .next (longSent n) := by
  have hk : readKey (longSender n) = .ok [0, 0] := by
    change ((keyed [0, 0]).mem.setBytes 0x10000 (List.replicate n 0)).readBytes 0x100 2 = _
    rw [readBytes_setBytes_outside _ _ _ _ _ (Or.inl (by decide))]
    decide
  have hm : readMessage (longSender n) = .ok (List.replicate n 0) := by
    unfold readMessage
    rw [longSender_inLen n h]
    change ((keyed [0, 0]).mem.setBytes 0x10000 (List.replicate n 0)).readBytes 0x10000 n = _
    rw [readBytes_setBytes _ _ _ _ (by simp)]
    simp
  have hl : (longSender n).keyLen.toNat = 2 := rfl
  refine (withKeyLength_next (least := 2) (s := longSender n)).2 (.inr (.inr ⟨by omega, by rw [hl]; decide, withMessageLength_next.2 (.inr ⟨?_, ?_⟩)⟩))
  · rwa [longSender_inLen n h]
  · exact frame_next.2 ⟨_, _, hk, hm, rfl⟩

/-- The hypotheses the two clauses of EcbRoundTrip share, for every length of a message. -/
theorem longSender_meets (n : Nat) (h : n ≤ bufBytes) (h1 : 1 ≤ n) :
    exec .ecbEncrypt (longSender n) = .next (longSent n) ∧ (longSent n).status.err = .ok ∧
    1 ≤ (longSender n).inLen.toNat ∧ (longReceiver n).cfg = (longSender n).cfg ∧
    (longReceiver n).keyLen = (longSender n).keyLen ∧ (longReceiver n).inLen = (longSent n).outLen ∧
    (∀ a, a < (longSender n).keyLen.toNat →
      (longReceiver n).mem.byteAt (0x100 + a) = (longSender n).mem.byteAt (0x100 + a)) ∧
    (∀ a, a < (longSent n).outLen.toNat →
      (longReceiver n).mem.byteAt (0x10000 + a) = (longSent n).mem.byteAt (0x20000 + a)) := by
  refine ⟨longSender_sends n h, rfl, by rwa [longSender_inLen n h], rfl, rfl, rfl, fun a ha => ?_, fun a ha => ?_⟩
  · have ha : a < 2 := ha
    exact byteAt_setBytes_outside _ _ _ _ (Or.inl (by omega))
  · have hl : a < (ecbEncrypt (longSender n).cfg [0, 0] (List.replicate n 0)).length := by
      have hm : (longSent n).outLen.toNat ≤ (ecbEncrypt (longSender n).cfg [0, 0] (List.replicate n 0)).length :=
        Nat.mod_le _ _
      omega
    have hb : (longSent n).mem.byteAt (0x20000 + a) = some _ :=
      byteAt_putWindow_inside _ .msgOut _ _ a hl
    simp only [longReceiver]
    rw [byteAt_setBytes_inside _ _ _ _ (by simpa using ha)]
    simp only [List.getElem_map, List.getElem_range]
    rw [hb]
    rfl

/-- At the boundary: the longest message that round-trips. -/
theorem witness_EcbRoundTrip_longest : ∃ n, 1 ≤ n ∧ n ≤ bufBytes ∧
    (longSender n).inLen.toNat ≤ bufBytes - 4 * (longSender n).cfg.nbWords ∧ (longSender n).inLen.toNat = bufBytes - 16 :=
  have h := bufBytes_bounds
  ⟨bufBytes - 16, by omega, by omega,
    by rw [longSender_inLen _ (by omega)]; exact Nat.le_refl _, longSender_inLen _ (by omega)⟩

/-- Beyond it: one byte more, and a full buffer. -/
theorem witness_EcbRoundTrip_beyond : ∀ n, (n = bufBytes - 15 ∨ n = bufBytes) → 1 ≤ n ∧ n ≤ bufBytes ∧
    bufBytes - 4 * (longSender n).cfg.nbWords < (longSender n).inLen.toNat := by
  have h := bufBytes_bounds
  intro n hn
  have hn' : n ≤ bufBytes := by omega
  refine ⟨by omega, hn', ?_⟩
  rw [longSender_inLen n hn']
  change bufBytes - 4 * 4 < n
  omega

theorem witness_EmptyMessagePassesThrough : State.reset.cfg.legal ∧ ([0, 0] : List Byte) ≠ [] := by
  unfold Cfg.legal; decide

theorem witness_BusErrorsAreHostFaults :
    (hostTurn (idle [.read 0x002]) ∧ (idle [.read 0x002]).host = .read 0x002 :: [] ∧
      (0x002 : BitVec 18).toNat % 4 ≠ 0) ∧
    (hostTurn (waiting 1 [.write 0x0FC 0]) ∧ (waiting 1 [.write 0x0FC 0]).host = .write 0x0FC 0 :: [] ∧
      (0x0FC : BitVec 18).toNat % 4 = 0 ∧ reservedOffset (0x0FC : BitVec 18).toNat) :=
  ⟨⟨Or.inl rfl, rfl, by decide⟩, ⟨Or.inr (by decide), rfl, by decide, Or.inl (by decide)⟩⟩

theorem witness_AddressMapIsTotal : 0x3FFFC < 2 ^ 18 ∧ 0x3FFFC % 4 = 0 ∧ faultOf (hostRead 0x3E0 State.reset) =
    some (.busReserved 0x3E0) ∧ busTarget 0x3DC = .ok (.window .schedA) ∧ busTarget 0x03C = .ok (.reg .elapsed) := by
  decide

/-- CTRL, STATUS, the last word of STATE, CMD and a reserved offset. -/
theorem witness_BusyWritesAreDropped : ∀ off ∈ [0x00C, 0x008, 0x05C, 0x004, 0x140],
    (waiting 1 [.write (BitVec.ofNat 18 off) 1]).delay ≠ 0 ∧ (waiting 1 [.write (BitVec.ofNat 18 off) 1]).status.busy = true ∧
    (waiting 1 [.write (BitVec.ofNat 18 off) 1]).host = .write (BitVec.ofNat 18 off) 1 :: [] ∧ off % 4 = 0 := by decide

theorem witness_BusyReadsAreDraws : ∀ off ∈ [0x000, 0x008, 0x00C, 0x004, 0x13C],
    (waiting 1 [.read (BitVec.ofNat 18 off)]).delay ≠ 0 ∧ (waiting 1 [.read (BitVec.ofNat 18 off)]).status.busy = true ∧
    (waiting 1 [.read (BitVec.ofNat 18 off)]).host = .read (BitVec.ofNat 18 off) :: [] ∧ off % 4 = 0 := by decide

theorem witness_StatusFieldsAndClears :
    hostTurn (waiting 1 [.write 0x008 0xFFFFFFFF]) ∧
    (waiting 1 [.write 0x008 0xFFFFFFFF]).host = .write 0x008 0xFFFFFFFF :: [] := ⟨Or.inr (by decide), rfl⟩

theorem witness_WindowAccessesAreLittleEndian :
    ((idle [.write 0x13C 0x0D4EBB0F]).host = .write 0x13C 0x0D4EBB0F :: [] ∧
      inRange 0x100 64 (0x13C : BitVec 18).toNat) ∧
    (∀ b, b < 4 → (block [0x0f, 0xbb, 0x4e, 0x0d]).mem.byteAt ((0x040 : BitVec 18).toNat + b) =
      some ((0x0D4EBB0F : Word).extractLsb' (8 * b) 8)) :=
  ⟨⟨rfl, by unfold inRange; decide⟩, by decide⟩

theorem witness_RegisterWritesAndReads : ∀ off ∈ [0x000, 0x014, 0x3DC, 0x5DC, 0x20000],
    (idle [.write (BitVec.ofNat 18 off) 1]).pending = none ∧ (idle [.write (BitVec.ofNat 18 off) 1]).status.busy = false ∧
    (idle [.write (BitVec.ofNat 18 off) 1]).host = .write (BitVec.ofNat 18 off) 1 :: [] ∧ off % 4 = 0 := by decide

/-- OPA, and ELAPSED, whose repetition is log 4. -/
theorem witness_HostReadsHaveNoSideEffect :
    (hostTurn (idle [.read 0x018]) ∧ step (idle [.read 0x018]) = .next (after (step (idle [.read 0x018])))) ∧
    hostTurn (idle [.read 0x03C]) ∧ step (idle [.read 0x03C]) = .next (after (step (idle [.read 0x03C]))) :=
  ⟨⟨Or.inl rfl, goesOn_eq (by decide)⟩, Or.inl rfl, goesOn_eq (by decide)⟩

theorem witness_UnwrittenBytesFault :
    ((idle [.read 0x05C]).host = .read 0x05C :: [] ∧ Window.state.base ≤ (0x05C : BitVec 18).toNat ∧
      (0x05C : BitVec 18).toNat < Window.state.base + Window.state.size ∧
      (idle [.read 0x05C]).mem.byteAt ((0x05C : BitVec 18).toNat + 3) = none) ∧
    (errorOf .invSubBytes (block (counting 15)) = .ok ∧ (block (counting 15)).mem.byteAt 0x04F = none ∧
      Instr.invSubBytes ∈ layerCommands.map (fun p => p.2.1) ∧
      inRange 0x040 (4 * (block (counting 15)).cfg.nbWords) 0x04F) := by
  refine ⟨by decide, by decide, by decide, by simp [layerCommands], ?_⟩
  unfold inRange; decide

/-- The last byte each of the other commands reads: schedules, key, message. -/
theorem witness_UnwrittenBytesFault_commands :
    let s := { State.reset with status := bothValid State.reset.status }
    (errorOf (.addRoundKey .a 10) s = .ok ∧ inRange 0x200 (4 * s.cfg.schedLen) 0x2AF) ∧
    (errorOf (.addRoundKey .b 0) s = .ok ∧ inRange 0x400 (4 * s.cfg.schedLen) 0x4AF) ∧
    (errorOf .encryptBlock s = .ok ∧ errorOf .decryptBlock s = .ok ∧ s.mem.byteAt 0x2AF = none) ∧
    (errorOf .keyExpand { keyed [0] with keyLen := 2 } = .ok ∧
      ({ keyed [0] with keyLen := 2 } : State).mem.byteAt 0x101 = none ∧ inRange 0x100 2 0x101) ∧
    (errorOf .keyExpandRot { keyed [] with keyLen := 64 } = .ok ∧ inRange 0x100 64 0x13F) ∧
    (errorOf .pad { messaged [] [1] with inLen := 2 } = .ok ∧ inRange 0x10000 2 0x10001) ∧
    (errorOf .ecbDecrypt { messaged [0, 0] [] with inLen := 32 } = .ok ∧ inRange 0x10000 32 0x1001F) := by
  unfold inRange; decide

/-- A command completes and leaves a byte of MSG_OUT above OUT_LEN without a value, as before. -/
theorem witness_UnwrittenBytesFault_results : let s := messaged [0, 0] (counting 5)
    exec .ecbDecrypt s = .next (after (exec .ecbDecrypt s)) ∧ (after (exec .ecbDecrypt s)).outLen = 5 ∧
    s.mem.byteAt 0x20005 = none :=
  ⟨goesOn_eq (by decide +kernel), by decide +kernel, by decide⟩

/-- 20_memory.md R90 and 10_state.md R46 at the machine: the word of MSG_OUT that holds only part of a 5-byte result
cannot be read while its upper bytes have never been written. -/
theorem test_msgOut_tail_unwritten :
    let t := after (exec .ecbDecrypt (messaged [0, 0] (counting 5)))
    t.mem.busWord 0x20004 = .error (.unwrittenByte 0x20005) ∧ t.mem.busWord 0x20000 = .ok 0x03020100 := by
  decide +kernel

/-- The same word after an earlier, longer result: it reads, with free upper bytes (95_test_vectors.md section 8). -/
theorem test_msgOut_tail_written :
    let t := after (exec .ecbEncrypt (messaged [0, 0] (counting 5)))
    ((after (exec .ecbDecrypt t)).mem.busWord 0x20004).toOption.isSome = true := by
  decide +kernel

theorem witness_ResetAbortsThePendingCommand :
    hostTurn (waiting 1 [.reset]) ∧ (waiting 1 [.reset]).host = .reset :: [] := ⟨Or.inr (by decide), rfl⟩

theorem witness_PendingCommandCompletes :
    (waiting 2 [.poll, .reset]).pending = some 0 ∧ (waiting 2 [.poll, .reset]).status.busy = true := by decide

theorem witness_WaitLeavesItsLoop :
    ((waiting 2 [.poll]).pending = some 0 ∧ (waiting 2 [.poll]).status.busy = true ∧
      (waiting 2 [.poll]).host = .poll :: []) ∧
    ((idle [.poll]).pending = none ∧ (idle [.poll]).status.busy = false ∧ (idle [.poll]).host = .poll :: []) := by
  decide

/-- A well-formed state with memory and a pending NOP. -/
def formed : State := { block (counting 16) with pending := some 0, status := State.reset.status.accepted }

theorem witness_StepKeepsForm : formed.WellFormed ∧ step formed = .next (after (step formed)) :=
  ⟨⟨by decide, fun c hc => ⟨.state, (by decide : ∀ c ∈ formed.mem, Window.state.contains c.1 = true) c hc⟩,
    by unfold Cfg.legal; decide, by decide, by decide⟩, goesOn_eq (by decide)⟩

/-- The schedules of the key 00 00 are expansions. -/
theorem scheduled_valid : (scheduled (counting 16)).SchedulesValid := by
  intro sel _
  refine ⟨[0], by decide, by decide, ?_⟩
  cases sel <;> decide +kernel

theorem witness_StepKeepsValidSchedules :
    State.reset.WellFormed ∧ (scheduled (counting 16)).SchedulesValid ∧
    (scheduled (counting 16)).status.valid .a = true ∧
    step (scheduled (counting 16)) = .next (after (step (scheduled (counting 16)))) :=
  ⟨⟨by decide, fun c hc => absurd hc (by simp [State.reset]), by unfold Cfg.legal; decide, by decide, by decide⟩,
    scheduled_valid, by decide +kernel, goesOn_eq (by decide +kernel)⟩

theorem witness_ValidSchedulesSuffice :
    (scheduled (counting 16)).SchedulesValid ∧ (scheduled (counting 16)).status.ksaValid = true ∧
    (scheduled (counting 16)).status.ksbValid = true ∧
    (∀ a, a < 4 * (scheduled (counting 16)).cfg.nbWords →
      ((scheduled (counting 16)).mem.byteAt (0x040 + a)).isSome = true) :=
  ⟨scheduled_valid, by decide +kernel, by decide +kernel, by decide +kernel⟩

end Sys2Proof.Tests
end

/-! PROOFS. The forms a step's outcome takes: what a command writes before its closing writes, and what a move of the
host does; exec_ends and hostStep_effect tie them to the model. Both are disjunctions and not inductive types: a new
type, declared after the tests, would hold the compile of the one text, and its memory, until their kernel checks are
done. -/

namespace Sys2Proof.Machine

open Sys2Proof.Statements

/-- The command that expands the whole key into one schedule (42_key_schedule.md R191, R192). -/
def wholeKeyCommand : Sched → Instr
  | .a => .keyExpandRot
  | .b => .keyExpandNorot

@[simp] theorem wholeKeyCommand_a : wholeKeyCommand .a = .keyExpandRot := rfl

@[simp] theorem wholeKeyCommand_b : wholeKeyCommand .b = .keyExpandNorot := rfl

/-- Whether a command writes a schedule when it succeeds (10_state.md R43). -/
def writesSchedule (i : Instr) (sel : Sched) : Bool :=
  decide (i = .keyExpand ∨ i = wholeKeyCommand sel ∨ i = .ecbEncrypt ∨ i = .ecbDecrypt)

theorem writesSchedule_iff {i : Instr} {sel : Sched} :
    writesSchedule i sel = true ↔ i = .keyExpand ∨ i = wholeKeyCommand sel ∨ i = .ecbEncrypt ∨ i = .ecbDecrypt :=
  decide_eq_true_iff

/-- A command that writes neither CFG nor a schedule. -/
abbrev keepsSchedules (i : Instr) : Prop :=
  i ≠ .configure ∧ writesSchedule i .a = false ∧ writesSchedule i .b = false

/-- What a command writes before its closing writes, given the code it ends with: an error writes nothing; a success
writes results in RES0 to RES2, the STATE columns, MSG_OUT, CFG, one schedule, both schedules, or both and MSG_OUT. -/
def Writes (s : State) (i : Instr) (e : ErrCode) (u : State) : Prop :=
  (i ≠ .configure ∧ e ≠ .ok ∧ u = s) ∨
  (keepsSchedules i ∧ e = .ok ∧ ∃ r0 r1 r2, u = ((s.setRes0 r0).setRes1 r1).setRes2 r2) ∨
  (keepsSchedules i ∧ e = .ok ∧ ∃ cols, cols.length = s.cfg.nbWords ∧ u = s.putColumns cols) ∨
  (keepsSchedules i ∧ e = .ok ∧ ∃ out, out.length ≤ outBytes ∧ u = s.putMessage out) ∨
  (i = .configure ∧ e = .ok ∧ u = (s.setCfg (requestedCfg s.cfgReq)).setStatus s.status.clearValid) ∨
  (∃ sel k, i = wholeKeyCommand sel ∧ e = .ok ∧ 1 ≤ k.length ∧ k.length ≤ keyBufBytes ∧
    u = s.putSchedule sel (expand s.cfg k (rotates sel))) ∨
  (i = .keyExpand ∧ e = .ok ∧ ∃ k, 2 ≤ k.length ∧ k.length ≤ keyBufBytes ∧ u = s.putSchedules k) ∨
  ((i = .ecbEncrypt ∨ i = .ecbDecrypt) ∧ e = .ok ∧ ∃ k out, 2 ≤ k.length ∧ k.length ≤ keyBufBytes ∧
    out.length ≤ outBytes ∧ u = (s.putSchedules k).putMessage out)

section Writes

variable {s : State} {i : Instr}

theorem Writes.error {e : ErrCode} (hi : i ≠ .configure) (he : e ≠ .ok) : Writes s i e s := .inl ⟨hi, he, rfl⟩

theorem Writes.results (hi : keepsSchedules i) (r0 r1 r2 : Word) :
    Writes s i .ok (((s.setRes0 r0).setRes1 r1).setRes2 r2) := .inr (.inl ⟨hi, rfl, r0, r1, r2, rfl⟩)

theorem Writes.columns (hi : keepsSchedules i) {cols : List Quad} (hl : cols.length = s.cfg.nbWords) :
    Writes s i .ok (s.putColumns cols) := .inr (.inr (.inl ⟨hi, rfl, cols, hl, rfl⟩))

theorem Writes.message (hi : keepsSchedules i) {out : List Byte} (hl : out.length ≤ outBytes) :
    Writes s i .ok (s.putMessage out) := .inr (.inr (.inr (.inl ⟨hi, rfl, out, hl, rfl⟩)))

theorem Writes.configure :
    Writes s .configure .ok ((s.setCfg (requestedCfg s.cfgReq)).setStatus s.status.clearValid) :=
  .inr (.inr (.inr (.inr (.inl ⟨rfl, rfl, rfl⟩))))

theorem Writes.wholeKey (sel : Sched) {k : List Byte} (hk : 1 ≤ k.length) (hk' : k.length ≤ keyBufBytes) :
    Writes s (wholeKeyCommand sel) .ok (s.putSchedule sel (expand s.cfg k (rotates sel))) :=
  .inr (.inr (.inr (.inr (.inr (.inl ⟨sel, k, rfl, rfl, hk, hk', rfl⟩)))))

theorem Writes.splitKey {k : List Byte} (hk : 2 ≤ k.length) (hk' : k.length ≤ keyBufBytes) :
    Writes s .keyExpand .ok (s.putSchedules k) :=
  .inr (.inr (.inr (.inr (.inr (.inr (.inl ⟨rfl, rfl, k, hk, hk', rfl⟩))))))

theorem Writes.frame (hi : i = .ecbEncrypt ∨ i = .ecbDecrypt) {k out : List Byte} (hk : 2 ≤ k.length)
    (hk' : k.length ≤ keyBufBytes) (hl : out.length ≤ outBytes) :
    Writes s i .ok ((s.putSchedules k).putMessage out) :=
  .inr (.inr (.inr (.inr (.inr (.inr (.inr ⟨hi, rfl, k, out, hk, hk', hl, rfl⟩))))))

/-- The case split of Writes, for `induction … using`. -/
theorem Writes.elim {motive : ∀ i e u, Writes s i e u → Prop}
    (error : ∀ {i e} (hi : i ≠ .configure) (he : e ≠ .ok), motive i e s (.error hi he))
    (results : ∀ {i} (hi : keepsSchedules i) r0 r1 r2, motive i .ok _ (.results hi r0 r1 r2))
    (columns : ∀ {i} (hi : keepsSchedules i) {cols} (hl : cols.length = s.cfg.nbWords),
      motive i .ok (s.putColumns cols) (.columns hi hl))
    (message : ∀ {i} (hi : keepsSchedules i) {out} (hl : out.length ≤ outBytes),
      motive i .ok (s.putMessage out) (.message hi hl))
    (configure : motive .configure .ok _ .configure)
    (wholeKey : ∀ sel {k : List Byte} (hk : 1 ≤ k.length) (hk' : k.length ≤ keyBufBytes),
      motive _ .ok _ (.wholeKey sel hk hk'))
    (splitKey : ∀ {k : List Byte} (hk : 2 ≤ k.length) (hk' : k.length ≤ keyBufBytes),
      motive .keyExpand .ok (s.putSchedules k) (.splitKey hk hk'))
    (frame : ∀ {i} (hi : i = .ecbEncrypt ∨ i = .ecbDecrypt) {k out : List Byte} (hk : 2 ≤ k.length)
      (hk' : k.length ≤ keyBufBytes) (hl : out.length ≤ outBytes),
      motive i .ok ((s.putSchedules k).putMessage out) (.frame hi hk hk' hl))
    {i : Instr} {e : ErrCode} {u : State} (h : Writes s i e u) : motive i e u h := by
  rcases id h with ⟨hi, he, rfl⟩ | ⟨hi, rfl, r0, r1, r2, rfl⟩ | ⟨hi, rfl, cols, hl, rfl⟩ | ⟨hi, rfl, out, hl, rfl⟩ |
    ⟨rfl, rfl, rfl⟩ | ⟨sel, k, rfl, rfl, hk, hk', rfl⟩ | ⟨rfl, rfl, k, hk, hk', rfl⟩ |
    ⟨hi, rfl, k, out, hk, hk', hl, rfl⟩
  · exact error hi he
  · exact results hi r0 r1 r2
  · exact columns hi hl
  · exact message hi hl
  · exact configure
  · exact wholeKey sel hk hk'
  · exact splitKey hk hk'
  · exact frame hi hk hk' hl

end Writes

/-- A command ends: its writes, then the closing writes (60_exceptions.md R301). -/
def Ends (i : Instr) (s t : State) : Prop := ∃ e u, Writes s i e u ∧ t = u.finish e

/-- The host's steps: a move that leaves CORE's registers and memory alone (a read, a poll, a look at IRQ, none), a
write dropped while BUSY = 1, a write that reaches its location, and reset. -/
def HostEffect (s t : State) : Prop :=
  (s.host.head? ≠ some .reset ∧ t = { s with host := t.host, rdata := t.rdata, delay := t.delay, draws := t.draws }) ∨
  (∃ off v rest, s.host = .write off v :: rest ∧ t = (movedOn s rest).dropWrite) ∨
  (∃ off v rest x, s.host = .write off v :: rest ∧ busTarget off.toNat = .ok x ∧
    t = (movedOn s rest).writeTarget off.toNat v x) ∨
  (∃ rest, s.host = .reset :: rest ∧ t = hostReset { s with host := rest })

end Sys2Proof.Machine

/-! PROOFS. Lengths of what the block and frame functions return. -/

namespace Sys2Proof.Machine

/-! The block pipelines keep NB columns, whatever the number of rounds. -/

section Pipelines

variable {wA wB : List Quad} {nb nr : Nat}

theorem encryptRound_length {i : Nat} {m : List Quad} (hA : wA.length = (nr + 1) * nb)
    (hB : wB.length = (nr + 1) * nb) (hi : i ≤ nr) (hm : m.length = nb) :
    (encryptRound wA wB nb i m).length = nb := by
  have keys := addKeysAB_length wA wB nb nr i (mixColumns (shiftRows (subBytes m))) hA hB hi (by simpa using hm)
  simp only [encryptRound]
  split <;> simp [keys]

theorem decryptRound_length {i : Nat} {m : List Quad} (hA : wA.length = (nr + 1) * nb)
    (hB : wB.length = (nr + 1) * nb) (hi : i ≤ nr) (hm : m.length = nb) :
    (decryptRound wA wB nb i m).length = nb := by
  simp only [decryptRound, invSubBytes_length, invShiftRows_length, invMixColumns_length]
  exact addKeysBA_length wA wB nb nr i _ hA hB hi (by split <;> simp [hm])

theorem encryptMatrix_length {m : List Quad} (hA : wA.length = (nr + 1) * nb) (hB : wB.length = (nr + 1) * nb)
    (hm : m.length = nb) : (encryptMatrix wA wB nb nr m).length = nb := by
  refine addKeysAB_length wA wB nb nr nr _ hA hB le_rfl ?_
  rw [shiftRows_length, subBytes_length]
  refine List.foldlRecOn (motive := fun m : List Quad => m.length = nb) _ _
    (addKeysAB_length wA wB nb nr 0 m hA hB (Nat.zero_le _) hm) fun m hm i hi => ?_
  have hi := List.mem_range'_1.1 hi
  exact encryptRound_length hA hB (by omega) hm

theorem decryptMatrix_length {m : List Quad} (hA : wA.length = (nr + 1) * nb) (hB : wB.length = (nr + 1) * nb)
    (hm : m.length = nb) : (decryptMatrix wA wB nb nr m).length = nb := by
  refine addKeysBA_length wA wB nb nr 0 _ hA hB (Nat.zero_le _) ?_
  refine List.foldrRecOn (motive := fun m : List Quad => m.length = nb) _ _
    (by simpa using addKeysBA_length wA wB nb nr nr m hA hB le_rfl hm) fun m hm i hi => ?_
  have hi := List.mem_range'_1.1 hi
  exact decryptRound_length hA hB (by omega) hm

theorem encryptBlock_length {b : List Byte} (hA : wA.length = (nr + 1) * nb) (hB : wB.length = (nr + 1) * nb)
    (hb : b.length = 4 * nb) : (encryptBlock b wA wB nb nr).length = 4 * nb := by
  simp [encryptBlock, encryptMatrix_length hA hB (load_length nb b hb)]

theorem decryptBlock_length {b : List Byte} (hA : wA.length = (nr + 1) * nb) (hB : wB.length = (nr + 1) * nb)
    (hb : b.length = 4 * nb) : (decryptBlock b wA wB nb nr).length = 4 * nb := by
  simp [decryptBlock, decryptMatrix_length hA hB (load_length nb b hb)]

end Pipelines

/-! Whole blocks and the frame (44_ecb_frame.md R241 to R249). -/

theorem blockAt_length {q : List Byte} {t j : Nat} (hj : j < q.length / t) : (blockAt q t j).length = t := by
  have hle : (j + 1) * t ≤ q.length := (Nat.mul_le_mul_right t hj).trans (Nat.div_mul_le_self _ _)
  rw [Nat.succ_mul] at hle
  simp only [blockAt, List.length_take, List.length_drop]
  omega

theorem dvd_add_missingBytes {t : Nat} (ht : 0 < t) (len : Nat) : t ∣ len + missingBytes len t := by
  have hr : len % t < t := Nat.mod_lt len ht
  rw [Nat.dvd_iff_mod_eq_zero, Nat.add_mod, missingBytes, Nat.mod_mod]
  rcases Nat.eq_zero_or_pos (len % t) with h0 | hpos
  · simp [h0]
  · rw [Nat.mod_eq_of_lt (show t - len % t < t by omega), Nat.add_sub_cancel' hr.le, Nat.mod_self]

/-- A length rounded up to blocks stays within any whole number of blocks that bounds it. -/
theorem add_missingBytes_le {t len n : Nat} (ht : 0 < t) (hn : t ∣ n) (hle : len ≤ n) :
    len + missingBytes len t ≤ n := by
  have hm : missingBytes len t < t := Nat.mod_lt _ ht
  obtain ⟨a, ha⟩ := dvd_add_missingBytes ht len
  obtain ⟨b, rfl⟩ := hn
  have hab : t * a < t * (b + 1) := by rw [Nat.mul_succ]; omega
  rw [ha]
  exact Nat.mul_le_mul_left t (Nat.lt_succ_iff.1 (Nat.lt_of_mul_lt_mul_left hab))

theorem blockBytes_bounds (c : Cfg) : 16 ≤ c.blockBytes ∧ c.blockBytes ≤ 32 := by
  have := nbWords_pos c
  simp only [Cfg.blockBytes]
  omega

/-- BUF_BYTES is a whole number of blocks of every length (00_scope.md R6). -/
theorem blockBytes_dvd_bufBytes (c : Cfg) : c.blockBytes ∣ bufBytes := by
  have h96 : (96 : Nat) ∣ bufBytes := ⟨Config.bufUnits % 682 + 1, rfl⟩
  refine Nat.dvd_trans ?_ h96
  rw [Cfg.blockBytes, Cfg.nbWords]
  cases c.nb <;> decide

/-- BUF_BYTES as R6 of 00_scope.md bounds it. -/
theorem bufBytes_bounds : 96 ≤ bufBytes ∧ bufBytes ≤ 65472 ∧ bufBytes % 4 = 0 := by
  simp only [bufBytes, Config.bufBytes]
  omega

theorem padMessage_length_le {c : Cfg} {p : List Byte} (hp : p.length ≤ bufBytes) :
    (padMessage p c.blockBytes).length ≤ outBytes := by
  have hT := blockBytes_bounds c
  have := add_missingBytes_le (by omega) (blockBytes_dvd_bufBytes c) hp
  rw [padMessage_length, outBytes]
  omega

theorem scheduleA_length (c : Cfg) (k : List Byte) : (scheduleA c k).length = (c.rounds + 1) * c.nbWords :=
  expand_length c _ _

theorem scheduleB_length (c : Cfg) (k : List Byte) : (scheduleB c k).length = (c.rounds + 1) * c.nbWords :=
  expand_length c _ _

/-- Encryption keeps the padded length (44_ecb_frame.md R243). -/
theorem ecbEncrypt_length (c : Cfg) (k p : List Byte) :
    (ecbEncrypt c k p).length = (padMessage p c.blockBytes).length := by
  have hdvd : c.blockBytes ∣ (padMessage p c.blockBytes).length := by
    rw [padMessage_length]
    exact (dvd_add_missingBytes (by have := blockBytes_bounds c; omega) _).add (dvd_refl _)
  exact (mapBlocks_length _ c.blockBytes _ fun j hj =>
    encryptBlock_length (scheduleA_length c k) (scheduleB_length c k) (blockAt_length hj)).trans
      (Nat.div_mul_cancel hdvd)

/-- Decryption never lengthens a message (44_ecb_frame.md R244, R249). -/
theorem ecbDecrypt_length_le (c : Cfg) (k m : List Byte) : (ecbDecrypt c k m).length ≤ m.length := by
  rw [ecbDecrypt]
  split
  · exact le_rfl
  · rw [stripPadding, List.length_take]
    exact (Nat.min_le_right _ _).trans ((mapBlocks_length _ c.blockBytes _ fun j hj =>
      decryptBlock_length (scheduleA_length c k) (scheduleB_length c k) (blockAt_length hj)).trans_le
        (Nat.div_mul_le_self _ _))

end Sys2Proof.Machine

/-! PROOFS. What a command can do, said once: the writes it ends with. -/

namespace Sys2Proof.Machine

/-! Reading words. -/

theorem readQuads_ok {m : Memory} {a n : Nat} {qs : List Quad} :
    m.readQuads a n = .ok qs ↔ ∃ bs, m.readBytes a (4 * n) = .ok bs ∧ load bs = qs := by
  unfold Memory.readQuads
  split <;> simp_all

theorem readQuads_length {m : Memory} {a n : Nat} {qs : List Quad} (h : m.readQuads a n = .ok qs) :
    qs.length = n := by
  obtain ⟨bs, hbs, rfl⟩ := readQuads_ok.1 h
  exact load_length n bs (readBytes_length hbs)

/-- Reading words depends only on the bytes read. -/
theorem readQuads_congr {m m' : Memory} {a n : Nat}
    (h : ∀ x, a ≤ x → x < a + 4 * n → m.byteAt x = m'.byteAt x) : m.readQuads a n = m'.readQuads a n := by
  rw [Memory.readQuads, Memory.readQuads, readBytes_congr fun k hk => h (a + k) (by omega) (by omega)]

/-- A result of whole words reads back. -/
theorem readQuads_putWindow (m : Memory) (w : Window) (qs : List Quad) (d : Nat) :
    (m.putWindow w (flatten qs) d).readQuads w.base qs.length = .ok qs := by
  refine readQuads_ok.2 ⟨flatten qs, ?_, load_flatten qs⟩
  rw [← flatten_length]
  exact readBytes_putWindow m w (flatten qs) d

theorem readKey_length {s : State} {k : List Byte} (h : readKey s = .ok k) : k.length = s.keyLen.toNat :=
  readBytes_length h

theorem readMessage_length {s : State} {p : List Byte} (h : readMessage s = .ok p) : p.length = s.inLen.toNat :=
  readBytes_length h

theorem readColumns_length {s : State} {m : List Quad} (h : readColumns s = .ok m) : m.length = s.cfg.nbWords :=
  readQuads_length h

theorem readSchedule_length {sel : Sched} {s : State} {w : List Quad} (h : readSchedule sel s = .ok w) :
    w.length = (s.cfg.rounds + 1) * s.cfg.nbWords := readQuads_length h

/-! Every command that answers a next state ends with one of the writes. -/

section Ends

variable {i : Instr} {s t : State}

theorem ends_error {e : ErrCode} (hi : i ≠ .configure) (h : t = s.finish e) (he : e ≠ .ok) : Ends i s t :=
  ⟨e, s, .error hi he, h⟩

theorem ends_results {u : State} (hi : keepsSchedules i)
    (hu : u = { s with res0 := u.res0, res1 := u.res1, res2 := u.res2 }) (h : t = u.finish .ok) : Ends i s t :=
  ⟨.ok, u, hu ▸ .results hi u.res0 u.res1 u.res2, h⟩

theorem ends_columns {cols : List Quad} (hi : keepsSchedules i) (hl : cols.length = s.cfg.nbWords)
    (h : t = (s.putColumns cols).finish .ok) : Ends i s t := ⟨.ok, _, .columns hi hl, h⟩

theorem ends_withModulus {u : State} (hi : keepsSchedules i)
    (hu : u = { s with res0 := u.res0, res1 := u.res1, res2 := u.res2 }) (h : withModulus s u = .next t) :
    Ends i s t := by
  rcases withModulus_next.1 h with ⟨-, ht⟩ | ⟨-, ht⟩
  · exact ends_error hi.1 ht nofun
  · exact ends_results hi hu ht

theorem ends_rcon (h : execRcon s = .next t) : Ends .rcon s t := by
  unfold execRcon at h
  split at h
  · exact ends_error nofun (raise_next.1 h) nofun
  · exact ends_results (by decide) rfl (complete_next.1 h)

theorem ends_layer {f : List Quad → List Quad} (hi : keepsSchedules i) (hf : ∀ m, (f m).length = m.length)
    (h : layer f s = .next t) : Ends i s t := by
  obtain ⟨m, hm, ht⟩ := layer_next.1 h
  exact ends_columns hi ((hf m).trans (readColumns_length hm)) ht

theorem ends_addRoundKey {sel : Sched} {rnd : Nat} (h : execAddRoundKey sel rnd s = .next t) :
    Ends (.addRoundKey sel rnd) s t := by
  rcases execAddRoundKey_next.1 h with ⟨-, ht⟩ | ⟨-, -, ht⟩ | ⟨-, hr, w, m, hw, hm, ht⟩
  · exact ends_error nofun ht nofun
  · exact ends_error nofun ht nofun
  · refine ends_columns ⟨nofun, rfl, rfl⟩ ?_ ht
    rw [addRoundKey_length, roundKey_length w _ _ rnd (readSchedule_length hw) hr, readColumns_length hm, Nat.min_self]

theorem ends_wholeBlock {f : List Byte → List Quad → List Quad → Nat → Nat → List Byte} (hi : keepsSchedules i)
    (hf : ∀ {wA wB : List Quad} {nb nr : Nat} {b : List Byte}, wA.length = (nr + 1) * nb →
      wB.length = (nr + 1) * nb → b.length = 4 * nb → (f b wA wB nb nr).length = 4 * nb)
    (h : wholeBlock f s = .next t) : Ends i s t := by
  rcases wholeBlock_next.1 h with ⟨-, ht⟩ | ⟨-, -, wA, wB, m, hA, hB, hm, ht⟩
  · exact ends_error hi.1 ht nofun
  · refine ends_columns hi (load_length _ _ (hf (readSchedule_length hA) (readSchedule_length hB) ?_)) ht
    rw [flatten_length, readColumns_length hm]

/-- The key-length checks: an error, or the rest under a key length in range. -/
theorem ends_withKeyLength {least : Nat} {k : Result} (hi : i ≠ .configure)
    (hk : least ≤ s.keyLen.toNat → s.keyLen.toNat ≤ keyBufBytes → k = .next t → Ends i s t)
    (h : withKeyLength least s k = .next t) : Ends i s t := by
  rcases withKeyLength_next.1 h with ⟨-, ht⟩ | ⟨-, -, ht⟩ | ⟨h1, h2, ht⟩
  · exact ends_error hi ht nofun
  · exact ends_error hi ht nofun
  · exact hk h1 h2 ht

/-- The message-length check: an error, or the rest under a message that fits MSG_IN. -/
theorem ends_withMessageLength {k : Result} (hi : i ≠ .configure)
    (hk : s.inLen.toNat ≤ bufBytes → k = .next t → Ends i s t) (h : withMessageLength s k = .next t) :
    Ends i s t := by
  rcases withMessageLength_next.1 h with ⟨-, ht⟩ | ⟨h1, ht⟩
  · exact ends_error hi ht nofun
  · exact hk h1 ht

theorem ends_wholeKey (sel : Sched) (h : expandWholeKey sel (rotates sel) s = .next t) :
    Ends (wholeKeyCommand sel) s t := by
  refine ends_withKeyLength (by cases sel <;> decide) (fun h1 h2 h => ?_) h
  obtain ⟨k, hk, ht⟩ := afterRead_next.1 h
  rw [← readKey_length hk] at h1 h2
  exact ⟨.ok, _, .wholeKey sel h1 h2, complete_next.1 ht⟩

theorem ends_keyExpand (h : execKeyExpand s = .next t) : Ends .keyExpand s t := by
  refine ends_withKeyLength nofun (fun h1 h2 h => ?_) h
  obtain ⟨k, hk, ht⟩ := afterRead_next.1 h
  rw [← readKey_length hk] at h1 h2
  exact ⟨.ok, _, .splitKey h1 h2, complete_next.1 ht⟩

theorem ends_pad (h : execPad s = .next t) : Ends .pad s t := by
  refine ends_withMessageLength nofun (fun h1 h => ?_) h
  obtain ⟨p, hp, ht⟩ := afterRead_next.1 h
  rw [← readMessage_length hp] at h1
  exact ⟨.ok, _, .message (by decide) (padMessage_length_le h1), complete_next.1 ht⟩

/-- The part ECB_ENCRYPT and ECB_DECRYPT share, once their checks have passed. -/
theorem ends_frame {f : Cfg → List Byte → List Byte → List Byte} (hi : i = .ecbEncrypt ∨ i = .ecbDecrypt)
    (hf : ∀ (c : Cfg) (k p : List Byte), p.length ≤ bufBytes → (f c k p).length ≤ outBytes)
    (h1 : 2 ≤ s.keyLen.toNat) (h2 : s.keyLen.toNat ≤ keyBufBytes) (h3 : s.inLen.toNat ≤ bufBytes)
    (h : frame f s = .next t) : Ends i s t := by
  obtain ⟨k, p, hk, hp, ht⟩ := frame_next.1 h
  rw [← readKey_length hk] at h1 h2
  rw [← readMessage_length hp] at h3
  exact ⟨.ok, _, .frame hi h1 h2 (hf _ _ _ h3), ht⟩

theorem ends_ecbEncrypt (h : execEcbEncrypt s = .next t) : Ends .ecbEncrypt s t := by
  refine ends_withKeyLength nofun (fun h1 h2 => ends_withMessageLength nofun fun h3 => ?_) h
  refine ends_frame (.inl rfl) (fun c k p hp => ?_) h1 h2 h3
  rw [ecbEncrypt_length]
  exact padMessage_length_le hp

theorem ends_ecbDecrypt (h : execEcbDecrypt s = .next t) : Ends .ecbDecrypt s t := by
  refine ends_withKeyLength nofun (fun h1 h2 => ends_withMessageLength nofun fun h3 h => ?_) h
  split at h
  · exact ends_error nofun (raise_next.1 h) nofun
  · refine ends_frame (.inr rfl) (fun c k p hp => ?_) h1 h2 h3 h
    exact (ecbDecrypt_length_le c k p).trans (hp.trans (Nat.le_add_right _ _))

/-- Every command that answers a next state ends with one of the writes above. -/
theorem exec_ends (h : exec i s = .next t) : Ends i s t := by
  cases i with
  | nop => exact ends_results (by decide) rfl (complete_next.1 h)
  | gfMul => exact ends_results (by decide) rfl (complete_next.1 h)
  | gfMod => exact ends_withModulus (by decide) rfl h
  | gfDiv => exact ends_withModulus (by decide) rfl h
  | gfGcd => exact ends_results (by decide) rfl (complete_next.1 h)
  | gfInv => exact ends_withModulus (by decide) rfl h
  | gfMulmod => exact ends_withModulus (by decide) rfl h
  | sbox => exact ends_results (by decide) rfl (complete_next.1 h)
  | invSbox => exact ends_results (by decide) rfl (complete_next.1 h)
  | mixcol => exact ends_results (by decide) rfl (complete_next.1 h)
  | invMixcol => exact ends_results (by decide) rfl (complete_next.1 h)
  | altMixcol => exact ends_results (by decide) rfl (complete_next.1 h)
  | invAltMixcol => exact ends_results (by decide) rfl (complete_next.1 h)
  | rcon => exact ends_rcon h
  | keyExpand => exact ends_keyExpand h
  | keyExpandRot => exact ends_wholeKey .a h
  | keyExpandNorot => exact ends_wholeKey .b h
  | subBytes => exact ends_layer (by decide) subBytes_length h
  | invSubBytes => exact ends_layer (by decide) invSubBytes_length h
  | shiftRows => exact ends_layer (by decide) shiftRows_length h
  | invShiftRows => exact ends_layer (by decide) invShiftRows_length h
  | mixColumns => exact ends_layer (by decide) mixColumns_length h
  | invMixColumns => exact ends_layer (by decide) invMixColumns_length h
  | altMixColumns => exact ends_layer (by decide) altMixColumns_length h
  | invAltMixColumns => exact ends_layer (by decide) invAltMixColumns_length h
  | addRoundKey sel rnd => exact ends_addRoundKey h
  | encryptBlock => exact ends_wholeBlock (by decide) encryptBlock_length h
  | decryptBlock => exact ends_wholeBlock (by decide) decryptBlock_length h
  | ecbEncrypt => exact ends_ecbEncrypt h
  | ecbDecrypt => exact ends_ecbDecrypt h
  | pad => exact ends_pad h
  | configure => exact ⟨.ok, _, .configure, complete_next.1 h⟩

end Ends

/-! What the writes leave and change. -/

/-- CFG after a command's writes: only CONFIGURE's differs (45_control.md R273). -/
theorem writes_cfg {s u : State} {i : Instr} {e : ErrCode} (h : Writes s i e u) :
    u.cfg = if i = .configure then requestedCfg s.cfgReq else s.cfg := by
  induction h using Writes.elim with
  | error hi he => simp [hi]
  | results hi r0 r1 r2 => simp [hi.1]
  | columns hi hl => simp [hi.1]
  | message hi hl => simp [hi.1]
  | configure => simp
  | wholeKey sel hk hk' => cases sel <;> simp
  | splitKey hk hk' => simp [State.putSchedules]
  | frame hi hk hk' hl => rcases hi with rfl | rfl <;> simp [State.putSchedules]

/-- The validity bits after a command's writes (10_state.md R43). -/
theorem writes_valid {s u : State} {i : Instr} {e : ErrCode} (h : Writes s i e u) (sel : Sched) :
    u.status.valid sel =
      if i = .configure then false else if e = .ok ∧ writesSchedule i sel = true then true else s.status.valid sel := by
  have quiet : ∀ {j : Instr}, keepsSchedules j → writesSchedule j sel = false := fun hj => by
    cases sel
    · exact hj.2.1
    · exact hj.2.2
  induction h using Writes.elim with
  | error hi he => simp [hi, he]
  | results hi r0 r1 r2 => simp [hi.1, quiet hi]
  | columns hi hl => simp [hi.1, quiet hi]
  | message hi hl => simp [hi.1, quiet hi]
  | configure => cases sel <;> simp
  | wholeKey sel' hk hk' => cases sel' <;> cases sel <;> simp [writesSchedule_iff]
  | splitKey hk hk' => cases sel <;> simp [State.putSchedules, writesSchedule_iff]
  | frame hi hk hk' hl => rcases hi with rfl | rfl <;> cases sel <;> simp [State.putSchedules, writesSchedule_iff]

end Sys2Proof.Machine

/-! PROOFS. What a command's writes keep: its inputs, the form of the state, the meaning of the validity bits. -/

namespace Sys2Proof.Machine

/-! Sizes of the schedules. -/

/-- Whatever CFG holds, a schedule's words end far below MSG_IN. -/
theorem schedLen_le_of_any (c : Cfg) : c.schedLen ≤ 2048 := by
  have hr : c.rounds + 1 ≤ 256 := c.nr.isLt
  exact Nat.mul_le_mul hr (nbWords_pos c).2

/-- Under a legal CFG a schedule fits its window (00_scope.md R6, R7). -/
theorem schedLen_le_of_legal {c : Cfg} (h : c.legal) : c.schedLen ≤ 120 := by
  have hn := nrTable_bounds c.nk c.nb
  have hr : c.rounds = nrTable c.nk c.nb := by
    rw [Cfg.rounds, h, BitVec.toNat_ofNat, Nat.mod_eq_of_lt (by omega)]
  exact Nat.mul_le_mul (show c.rounds + 1 ≤ 15 by omega) (nbWords_pos c).2

/-- Where the schedule windows lie (10_state.md R41, R42). -/
theorem schedWindow_bounds (sel : Sched) :
    0x200 ≤ (schedWindow sel).base ∧ (schedWindow sel).base ≤ 0x400 ∧ (schedWindow sel).size = 480 := by
  cases sel <;> decide

theorem schedWindow_disjoint {sel sel' : Sched} (h : sel' ≠ sel) :
    (schedWindow sel').base + 480 ≤ (schedWindow sel).base ∨
      (schedWindow sel).base + 480 ≤ (schedWindow sel').base := by
  cases sel <;> cases sel'
  case a.a => exact absurd rfl h
  case a.b => exact .inr (by decide)
  case b.a => exact .inl (by decide)
  case b.b => exact absurd rfl h

/-! The registers and memory a command leaves. -/

/-- A command's writes reach STATUS, CFG, RES0 to RES2, OUT_LEN and memory only. -/
theorem writes_frame {s u : State} {i : Instr} {e : ErrCode} (h : Writes s i e u) :
    u = { s with
      status := u.status, cfg := u.cfg, res0 := u.res0, res1 := u.res1, res2 := u.res2, outLen := u.outLen,
      mem := u.mem } := by
  induction h using Writes.elim <;> rfl

theorem byteAt_putColumns_outside {s : State} {cols : List Quad} {a : Nat}
    (h : a < 0x040 ∨ 0x040 + 4 * cols.length ≤ a) : (s.putColumns cols).mem.byteAt a = s.mem.byteAt a :=
  byteAt_setBytes_outside _ _ _ _ (by simpa [Window.base] using h)

theorem byteAt_putSchedule_outside {s : State} {sel : Sched} {ws : List Quad} {a : Nat} (hl : ws.length ≤ 2048)
    (h : a < 0x200 ∨ 0x10000 ≤ a) : (s.putSchedule sel ws).mem.byteAt a = s.mem.byteAt a := by
  have hw := schedWindow_bounds sel
  refine byteAt_putWindow_outside _ _ _ _ _ ?_
  rw [flatten_length]
  omega

theorem byteAt_putSchedules_outside {s : State} {k : List Byte} {a : Nat} (h : a < 0x200 ∨ 0x10000 ≤ a) :
    (s.putSchedules k).mem.byteAt a = s.mem.byteAt a := by
  have hA : (scheduleA s.cfg k).length ≤ 2048 := (expand_length _ _ _).trans_le (schedLen_le_of_any _)
  have hB : (scheduleB s.cfg k).length ≤ 2048 := (expand_length _ _ _).trans_le (schedLen_le_of_any _)
  exact (byteAt_putSchedule_outside hB h).trans (byteAt_putSchedule_outside hA h)

theorem byteAt_putMessage_outside {s : State} {out : List Byte} {a : Nat} (h : a < 0x20000) :
    (s.putMessage out).mem.byteAt a = s.mem.byteAt a :=
  byteAt_putWindow_outside _ _ _ _ _ (.inl h)

/-- The bytes no command writes: below the schedules and outside the STATE columns in use, and MSG_IN. -/
theorem writes_byteAt {s u : State} {i : Instr} {e : ErrCode} {a : Nat} (h : Writes s i e u)
    (hcols : a < 0x040 ∨ 0x040 + 4 * s.cfg.nbWords ≤ a) (ha : a < 0x200 ∨ 0x10000 ≤ a ∧ a < 0x20000) :
    u.mem.byteAt a = s.mem.byteAt a := by
  have houtside : a < 0x200 ∨ 0x10000 ≤ a := by omega
  have hbelow : a < 0x20000 := by omega
  induction h using Writes.elim with
  | error hi he => rfl
  | results hi r0 r1 r2 => rfl
  | columns hi hl => exact byteAt_putColumns_outside (hl ▸ hcols)
  | message hi hl => exact byteAt_putMessage_outside hbelow
  | configure => rfl
  | wholeKey sel hk hk' =>
    exact byteAt_putSchedule_outside ((expand_length _ _ _).trans_le (schedLen_le_of_any _)) houtside
  | splitKey hk hk' => exact byteAt_putSchedules_outside houtside
  | frame hi hk hk' hl => exact (byteAt_putMessage_outside hbelow).trans (byteAt_putSchedules_outside houtside)

/-! The form of the state. -/

theorem contains_iff {w : Window} {a : Nat} : w.contains a = true ↔ w.base ≤ a ∧ a < w.base + w.size := by
  simp only [Window.contains, Bool.and_eq_true, decide_eq_true_eq]
  omega

/-- Bytes set inside a window keep memory inside the windows. -/
theorem setBytes_mapped {m : Memory} {lo : Nat} {bs : List Byte} (w : Window) (hm : m.mapped) (hlo : w.base ≤ lo)
    (hhi : lo + bs.length ≤ w.base + w.size) : (m.setBytes lo bs).mapped := by
  intro c hc
  rcases mem_setBytes hc with hc | hc
  · exact hm c hc
  · exact ⟨w, contains_iff.2 (by omega)⟩

theorem putWindow_mapped {m : Memory} {w : Window} {bs : List Byte} (d : Nat) (hm : m.mapped)
    (hl : bs.length ≤ w.size) : (m.putWindow w bs d).mapped := by
  intro c hc
  rcases mem_putWindow hc with ⟨b, hb, hbc⟩ | hc
  · exact hbc ▸ hm b hb
  · exact ⟨w, contains_iff.2 (by omega)⟩

theorem putSchedule_mapped {s : State} {sel : Sched} {ws : List Quad} (hl : ws.length ≤ 120) (hm : s.mem.mapped) :
    (s.putSchedule sel ws).mem.mapped := by
  refine putWindow_mapped _ hm ?_
  rw [flatten_length, (schedWindow_bounds sel).2.2]
  omega

theorem writes_mem_wf {s u : State} {i : Instr} {e : ErrCode} (h : Writes s i e u) (hm : s.mem.wf) : u.mem.wf := by
  have hsched : ∀ k, (s.putSchedules k).mem.wf := fun k => putWindow_wf (putWindow_wf hm _ _ _) _ _ _
  induction h using Writes.elim with
  | error hi he => exact hm
  | results hi r0 r1 r2 => exact hm
  | columns hi hl => exact setBytes_wf hm _ _
  | message hi hl => exact putWindow_wf hm _ _ _
  | configure => exact hm
  | wholeKey sel hk hk' => exact putWindow_wf hm _ _ _
  | splitKey hk hk' => exact hsched _
  | frame hi hk hk' hl => exact putWindow_wf (hsched _) _ _ _

theorem writes_mem_mapped {s u : State} {i : Instr} {e : ErrCode} (h : Writes s i e u) (hc : s.cfg.legal)
    (hm : s.mem.mapped) : u.mem.mapped := by
  have hexp : ∀ k rot, (expand s.cfg k rot).length ≤ 120 := fun k rot =>
    (expand_length _ _ _).trans_le (schedLen_le_of_legal hc)
  have hsched : ∀ k, (s.putSchedules k).mem.mapped := fun k =>
    putSchedule_mapped (hexp _ _) (putSchedule_mapped (hexp _ _) hm)
  induction h using Writes.elim with
  | error hi he => exact hm
  | results hi r0 r1 r2 => exact hm
  | columns hi hl =>
    refine setBytes_mapped .state hm le_rfl (Nat.add_le_add_left ?_ _)
    have := nbWords_pos s.cfg
    rw [flatten_length, hl, Window.size]
    omega
  | message hi hl => exact putWindow_mapped _ hm hl
  | configure => exact hm
  | wholeKey sel hk hk' => exact putSchedule_mapped (hexp _ _) hm
  | splitKey hk hk' => exact hsched _
  | frame hi hk hk' hl => exact putWindow_mapped _ (hsched _) hl

theorem writes_cfg_legal {s u : State} {i : Instr} {e : ErrCode} (h : Writes s i e u) (hc : s.cfg.legal) :
    u.cfg.legal := by
  rw [writes_cfg h]
  split
  · exact rfl
  · exact hc

/-- The closing writes leave BUSY = 0 and nothing pending. -/
theorem finish_wellFormed {u : State} (e : ErrCode) (hw : u.mem.wf) (hm : u.mem.mapped) (hc : u.cfg.legal) :
    (u.finish e).WellFormed := ⟨hw, hm, hc, rfl, nofun⟩

theorem ends_wellFormed {i : Instr} {s t : State} (h : Ends i s t) (hs : s.WellFormed) : t.WellFormed := by
  obtain ⟨e, u, hu, rfl⟩ := h
  exact finish_wellFormed e (writes_mem_wf hu hs.memCanonical) (writes_mem_mapped hu hs.cfgLegal hs.memMapped)
    (writes_cfg_legal hu hs.cfgLegal)

/-! The meaning of the validity bits. -/

/-- A schedule reads alike where CFG and its window are alike. -/
theorem readSchedule_congr {s t : State} {sel : Sched} (hl : s.cfg.legal) (hc : t.cfg = s.cfg)
    (hm : ∀ a, (schedWindow sel).base ≤ a → a < (schedWindow sel).base + 480 → t.mem.byteAt a = s.mem.byteAt a) :
    readSchedule sel t = readSchedule sel s := by
  have := schedLen_le_of_legal hl
  rw [readSchedule, readSchedule, hc]
  exact readQuads_congr fun x hx hx' => hm x hx (by omega)

/-- An expansion stays one where CFG and its window are alike. -/
theorem holdsExpansion_congr {s t : State} {sel : Sched} (hl : s.cfg.legal) (hc : t.cfg = s.cfg)
    (hm : ∀ a, (schedWindow sel).base ≤ a → a < (schedWindow sel).base + 480 → t.mem.byteAt a = s.mem.byteAt a)
    (h : s.holdsExpansion sel) : t.holdsExpansion sel := by
  rwa [State.holdsExpansion, readSchedule_congr hl hc hm, hc]

/-- What leaves CFG and the schedule windows, and sets no validity bit, keeps their meaning. -/
theorem schedulesValid_congr {s t : State} (hl : s.cfg.legal) (hc : t.cfg = s.cfg)
    (hst : ∀ sel, t.status.valid sel = s.status.valid sel)
    (hm : ∀ a, 0x200 ≤ a → a < 0x5E0 → t.mem.byteAt a = s.mem.byteAt a) (h : s.SchedulesValid) :
    t.SchedulesValid := by
  intro sel hsel
  have := schedWindow_bounds sel
  exact holdsExpansion_congr hl hc (fun a ha ha' => hm a (by omega) (by omega)) (h sel (hst sel ▸ hsel))

/-- Writing the expansion of a key as a schedule keeps the meaning of both validity bits. -/
theorem putSchedule_schedulesValid {s : State} {sel : Sched} {k : List Byte} (hl : s.cfg.legal) (hk : 1 ≤ k.length)
    (hk' : k.length ≤ keyBufBytes) (h : s.SchedulesValid) :
    (s.putSchedule sel (expand s.cfg k (rotates sel))).SchedulesValid := by
  intro sel' hsel'
  by_cases heq : sel' = sel
  · subst heq
    refine ⟨k, hk, hk', ?_⟩
    have hread := readQuads_putWindow s.mem (schedWindow sel') (expand s.cfg k (rotates sel')) s.draws
    rwa [expand_length] at hread
  · have hold : s.status.valid sel' = true := by
      rw [putSchedule_status, setValid_valid] at hsel'
      simpa [heq] using hsel'
    refine holdsExpansion_congr hl rfl (fun a ha ha' => ?_) (h sel' hold)
    have := schedLen_le_of_legal hl
    refine byteAt_putWindow_outside _ _ _ _ _ ?_
    rw [flatten_length, expand_length]
    have hsize := (schedWindow_bounds sel).2.2
    have hapart := schedWindow_disjoint heq
    omega

theorem putSchedules_schedulesValid {s : State} {k : List Byte} (hl : s.cfg.legal) (hk : 2 ≤ k.length)
    (hk' : k.length ≤ keyBufBytes) (h : s.SchedulesValid) : (s.putSchedules k).SchedulesValid := by
  have hA : 1 ≤ (firstHalf k).length ∧ (firstHalf k).length ≤ keyBufBytes := by
    rw [firstHalf, List.length_take]
    omega
  have hB : 1 ≤ (secondHalf k).length ∧ (secondHalf k).length ≤ keyBufBytes := by
    rw [secondHalf, List.length_drop]
    omega
  exact putSchedule_schedulesValid (sel := .b) hl hB.1 hB.2
    (putSchedule_schedulesValid (sel := .a) hl hA.1 hA.2 h)

theorem putMessage_schedulesValid {s : State} {out : List Byte} (hl : s.cfg.legal) (h : s.SchedulesValid) :
    (s.putMessage out).SchedulesValid :=
  schedulesValid_congr hl rfl (fun _ => rfl) (fun _ _ ha => byteAt_putMessage_outside (by omega)) h

theorem putColumns_schedulesValid {s : State} {cols : List Quad} (hl : s.cfg.legal)
    (hcols : cols.length = s.cfg.nbWords) (h : s.SchedulesValid) : (s.putColumns cols).SchedulesValid := by
  have := nbWords_pos s.cfg
  exact schedulesValid_congr hl rfl (fun _ => rfl) (fun _ ha _ => byteAt_putColumns_outside (by omega)) h

theorem writes_schedulesValid {s u : State} {i : Instr} {e : ErrCode} (hw : Writes s i e u) (hl : s.cfg.legal)
    (h : s.SchedulesValid) : u.SchedulesValid := by
  induction hw using Writes.elim with
  | error hi he => exact h
  | results hi r0 r1 r2 => exact h
  | columns hi hcols => exact putColumns_schedulesValid hl hcols h
  | message hi hout => exact putMessage_schedulesValid hl h
  | configure => intro sel hsel; cases sel <;> cases hsel
  | wholeKey sel hk hk' => exact putSchedule_schedulesValid hl hk hk' h
  | splitKey hk hk' => exact putSchedules_schedulesValid hl hk hk' h
  | frame hi hk hk' hout => exact putMessage_schedulesValid hl (putSchedules_schedulesValid hl hk hk' h)

theorem finish_schedulesValid {u : State} (e : ErrCode) (h : u.SchedulesValid) : (u.finish e).SchedulesValid := by
  intro sel hsel
  exact h sel (by cases sel <;> exact hsel)

theorem ends_schedulesValid {i : Instr} {s t : State} (h : Ends i s t) (hl : s.cfg.legal) (hs : s.SchedulesValid) :
    t.SchedulesValid := by
  obtain ⟨e, u, hu, rfl⟩ := h
  exact finish_schedulesValid e (writes_schedulesValid hu hl hs)

end Sys2Proof.Machine

/-! PROOFS. The address decoder, inverted, and what a host step can do, said once. -/

namespace Sys2Proof.Machine

open Sys2Proof.Statements

/-! The address map (10_state.md R20, 20_memory.md R74 to R76). -/

theorem busTarget_offset (r : Reg) : busTarget r.offset = .ok (.reg r) := by cases r <;> rfl

theorem offset_lt (r : Reg) : r.offset < 0x040 := by cases r <;> decide

theorem le_base (w : Window) : 0x040 ≤ w.base := by cases w <;> decide

theorem mem_windowsInOrder (w : Window) : w ∈ windowsInOrder := by cases w <;> decide

theorem windows_pairwise_apart :
    windowsInOrder.Pairwise fun v w => v.base + v.size ≤ w.base ∨ w.base + w.size ≤ v.base := by
  have := bufBytes_bounds
  have hrise : windowsInOrder.Pairwise fun v w => v.base + v.size ≤ w.base := by
    simp [windowsInOrder, Window.base, Window.size, keyBufBytes, schedWords]
    omega
  exact hrise.imp .inl

theorem windows_apart {v w : Window} (h : v ≠ w) : v.base + v.size ≤ w.base ∨ w.base + w.size ≤ v.base :=
  @List.Pairwise.forall _ _ _ ⟨fun _ _ => Or.symm⟩ windows_pairwise_apart _ (mem_windowsInOrder v) _
    (mem_windowsInOrder w) h

/-- No offset lies in two windows. -/
theorem contains_unique {v w : Window} {a : Nat} (hv : v.contains a = true) (hw : w.contains a = true) : v = w := by
  rw [contains_iff] at hv hw
  by_contra hne
  have := windows_apart hne
  omega

/-- A register's offset lies in no window. -/
theorem not_contains_offset (r : Reg) (w : Window) : w.contains r.offset ≠ true := by
  rw [Ne, contains_iff]
  have := offset_lt r
  have := le_base w
  omega

/-- A reserved offset lies in no window. -/
theorem not_contains_of_reserved {off : Nat} (h : busTarget off = .error (.busReserved off)) (w : Window) :
    w.contains off ≠ true := by
  unfold busTarget at h
  split at h
  · cases h
  · split at h
    · cases h
    · split at h
      · cases h
      · rename_i hw
        exact List.find?_eq_none.1 hw w (mem_windowsInOrder w)

theorem busTarget_reg_iff {off : Nat} {r : Reg} : busTarget off = .ok (.reg r) ↔ r.offset = off := by
  constructor
  · intro h
    rcases busTarget_cases off with ⟨-, h'⟩ | ⟨-, r', hr, h'⟩ | ⟨-, w, -, h'⟩ | ⟨-, h'⟩ <;> rw [h'] at h <;> cases h
    exact hr
  · rintro rfl
    exact busTarget_offset r

theorem busTarget_window_iff {off : Nat} {w : Window} :
    busTarget off = .ok (.window w) ↔ off % 4 = 0 ∧ w.contains off = true := by
  constructor
  · intro h
    rcases busTarget_cases off with ⟨-, h'⟩ | ⟨-, r, -, h'⟩ | ⟨h4, v, hv, h'⟩ | ⟨-, h'⟩ <;> rw [h'] at h <;> cases h
    exact ⟨h4, hv⟩
  · rintro ⟨h4, hw⟩
    rcases busTarget_cases off with ⟨hne, -⟩ | ⟨-, r, rfl, -⟩ | ⟨-, v, hv, h'⟩ | ⟨-, h'⟩
    · exact absurd h4 hne
    · exact absurd hw (not_contains_offset r w)
    · rw [h', contains_unique hv hw]
    · exact absurd hw (not_contains_of_reserved h' w)

theorem exists_offset {off : Nat} (hlt : off < 0x040) (h4 : off % 4 = 0) : ∃ r : Reg, r.offset = off := by
  have table : ∀ k < 16, (regsInOrder.getD k .id).offset = 4 * k := by decide
  exact ⟨_, (table (off / 4) (by omega)).trans (by omega)⟩

/-- The map leaves no gap: outside the reserved ranges of R76 an aligned offset is a register's or in a window. -/
theorem reserved_or_selected {off : Nat} (hlt : off < 2 ^ 18) (h4 : off % 4 = 0) :
    reservedOffset off ∨ (∃ r : Reg, r.offset = off) ∨ ∃ w : Window, w.contains off = true := by
  by_cases hreg : off < 0x040
  · exact .inr (.inl (exists_offset hreg h4))
  · by_contra! h
    obtain ⟨hres, -, hwin⟩ := h
    have hstate := hwin .state
    have hkey := hwin .keyBuf
    have hschedA := hwin .schedA
    have hschedB := hwin .schedB
    have hmsgIn := hwin .msgIn
    have hmsgOut := hwin .msgOut
    simp only [Ne, contains_iff, Window.base, Window.size, keyBufBytes, schedWords] at *
    simp only [reservedOffset] at hres
    omega

theorem offset_not_reserved {r : Reg} : ¬ reservedOffset r.offset := by
  have := offset_lt r
  simp only [reservedOffset]
  omega

theorem not_reserved_of_contains {w : Window} {off : Nat} (h : w.contains off = true) : ¬ reservedOffset off := by
  have := bufBytes_bounds
  rw [contains_iff] at h
  cases w <;> simp only [reservedOffset, outBytes, Window.base, Window.size, keyBufBytes, schedWords] at * <;> omega

theorem busTarget_reserved_iff {off : Nat} (hlt : off < 2 ^ 18) (h4 : off % 4 = 0) :
    busTarget off = .error (.busReserved off) ↔ reservedOffset off := by
  constructor
  · intro h
    rcases reserved_or_selected hlt h4 with hres | ⟨r, rfl⟩ | ⟨w, hw⟩
    · exact hres
    · rw [busTarget_offset] at h
      cases h
    · exact absurd hw (not_contains_of_reserved h w)
  · intro hres
    rcases busTarget_cases off with ⟨hne, -⟩ | ⟨-, r, rfl, -⟩ | ⟨-, v, hv, -⟩ | ⟨-, h'⟩
    · exact absurd h4 hne
    · exact absurd hres offset_not_reserved
    · exact absurd hres (not_reserved_of_contains hv)
    · exact h'

/-- A word at an aligned offset of a window lies in it whole. -/
theorem word_within_window {w : Window} {off : Nat} (h4 : off % 4 = 0) (h : w.contains off = true) :
    w.base ≤ off ∧ off + 4 ≤ w.base + w.size := by
  have := bufBytes_bounds
  rw [contains_iff] at h
  cases w <;> simp only [outBytes, Window.base, Window.size, keyBufBytes, schedWords] at * <;> omega

/-! The host's turn. -/

theorem sequencerWord_of_hostTurn {s : State} (h : hostTurn s) (hne : s.host ≠ []) : s.sequencerWord = none :=
  sequencerWord_eq_none.2 (h.imp_right fun hd => ⟨hd, hne⟩)

theorem step_write {s : State} {off : BitVec 18} {v : Word} {rest : List HostMove} (h : hostTurn s)
    (hh : s.host = .write off v :: rest) : step s = hostWrite off.toNat v (movedOn s rest) := by
  rw [step_host (sequencerWord_of_hostTurn h (by simp [hh])), hostStep, hh]
  rfl

theorem step_read {s : State} {off : BitVec 18} {rest : List HostMove} (h : hostTurn s)
    (hh : s.host = .read off :: rest) : step s = hostRead off.toNat (movedOn s rest) := by
  rw [step_host (sequencerWord_of_hostTurn h (by simp [hh])), hostStep, hh]
  rfl

/-- A write to a location that may be written has the location's own effect. -/
theorem hostWrite_effect {off : Nat} {v : Word} {s : State} {x : Target} (hx : busTarget off = .ok x)
    (hb : s.status.busy = true → writableWhileBusy x = true) : hostWrite off v s = .next (s.writeTarget off v x) := by
  unfold hostWrite
  cases hbusy : s.status.busy <;> simp_all

/-- A read of a register while BUSY = 0 returns what it holds. -/
theorem hostRead_reg {off : Nat} {s : State} {r : Reg} (hr : r.offset = off) (hb : s.status.busy = false) :
    hostRead off s = .next { s with rdata := some (s.regWord r) } := by
  simp [hostRead, busTarget_reg_iff.2 hr, hb, State.targetWord]

/-! What a host step can do. -/

theorem hostStep_effect {s t : State} (h : hostStep s = .next t) : HostEffect s t := by
  unfold hostStep at h
  split at h
  next hh =>
    cases h
    exact .inl ⟨by simp [hh], rfl⟩
  next off v rest hh =>
    rcases hostWrite_cases off.toNat v (movedOn s rest) with ⟨f, -, hw⟩ | ⟨x, -, -, -, hw⟩ | ⟨x, hx, -, hw⟩
    · exact absurd (hw.symm.trans h) nofun
    · cases hw.symm.trans h
      exact .inr (.inl ⟨off, v, rest, hh, rfl⟩)
    · cases hw.symm.trans h
      exact .inr (.inr (.inl ⟨off, v, rest, x, hh, hx, rfl⟩))
  next off rest hh =>
    obtain ⟨v, rfl | rfl⟩ := hostRead_next h
    · exact .inl ⟨by simp [hh], rfl⟩
    · exact .inl ⟨by simp [hh], rfl⟩
  next rest hh =>
    cases h
    exact .inl ⟨by simp [hh], rfl⟩
  next rest hh =>
    cases h
    exact .inl ⟨by simp [hh], rfl⟩
  next rest hh =>
    cases h
    exact .inr (.inr (.inr ⟨rest, hh, rfl⟩))

/-! What a write that reaches its location leaves. -/

@[simp] theorem writeTarget_cfg (s : State) (off : Nat) (v : Word) (x : Target) :
    (s.writeTarget off v x).cfg = s.cfg := by
  cases x with
  | reg r => cases r <;> rfl
  | window w => cases w <;> rfl

@[simp] theorem writeTarget_valid (s : State) (off : Nat) (v : Word) (x : Target) (sel : Sched) :
    (s.writeTarget off v x).status.valid sel = s.status.valid sel := by
  cases x with
  | reg r => cases r <;> cases sel <;> rfl
  | window w => cases w <;> rfl

@[simp] theorem writeReg_mem (s : State) (v : Word) (r : Reg) : (s.writeReg v r).mem = s.mem := by
  cases r <;> rfl

/-- A write to a window the host may not write is ignored (20_memory.md R77). -/
theorem writeWindow_readOnly {s : State} {off : Nat} {v : Word} {w : Window} (h : w.hostWritable = false) :
    s.writeWindow off v w = s := by
  simp [State.writeWindow, h]

theorem writeWindow_writable {s : State} {off : Nat} {v : Word} {w : Window} (h : w.hostWritable = true) :
    s.writeWindow off v w = s.setMem (s.mem.setBytes off (quadList (quadOfWord v))) := by
  simp [State.writeWindow, h]

end Sys2Proof.Machine

/-! PROOFS. A step keeps the form of the state and the meaning of the validity bits. -/

namespace Sys2Proof.Machine

open Sys2Proof.Statements

/-! The sequencer's step. -/

/-- A sequencer step ends a command, or takes the error of an illegal word and writes nothing else. -/
theorem runCommand_ends {w : Word} {s t : State} (h : runCommand w s = .next t) :
    (∃ i, decode w = .ok i ∧ Ends i s t) ∨ t = s.finish .illegalCmd := by
  rcases runCommand_cases w s with ⟨i, hi, hrun⟩ | ⟨-, hrun⟩
  · exact .inl ⟨i, hi, exec_ends (hrun ▸ h)⟩
  · rw [hrun] at h
    exact .inr (by cases h; rfl)

theorem runCommand_wellFormed {w : Word} {s t : State} (h : runCommand w s = .next t) (hs : s.WellFormed) :
    t.WellFormed := by
  rcases runCommand_ends h with ⟨i, -, hi⟩ | rfl
  · exact ends_wellFormed hi hs
  · exact finish_wellFormed _ hs.memCanonical hs.memMapped hs.cfgLegal

theorem runCommand_schedulesValid {w : Word} {s t : State} (h : runCommand w s = .next t) (hl : s.cfg.legal)
    (hs : s.SchedulesValid) : t.SchedulesValid := by
  rcases runCommand_ends h with ⟨i, -, hi⟩ | rfl
  · exact ends_schedulesValid hi hl hs
  · exact finish_schedulesValid _ hs

/-! The host's step. -/

theorem wellFormed_congr {s t : State} (hs : s.WellFormed) (hm : t.mem = s.mem) (hc : t.cfg = s.cfg)
    (hbusy : t.status.busy = s.status.busy) (hdone : t.status.done = s.status.done) (hp : t.pending = s.pending) :
    t.WellFormed where
  memCanonical := hm ▸ hs.memCanonical
  memMapped := hm ▸ hs.memMapped
  cfgLegal := hc ▸ hs.cfgLegal
  busyPending := by rw [hbusy, hp, hs.busyPending]
  busyNotDone := by rw [hbusy, hdone]; exact hs.busyNotDone

/-- Only writes to CMD and STATUS touch what the form speaks of. -/
theorem writeReg_wellFormed {s : State} (v : Word) (r : Reg) (hs : s.WellFormed) : (s.writeReg v r).WellFormed := by
  cases r
  case cmd => exact ⟨hs.memCanonical, hs.memMapped, hs.cfgLegal, rfl, fun _ => rfl⟩
  case status =>
    exact ⟨hs.memCanonical, hs.memMapped, hs.cfgLegal, hs.busyPending, fun hb => by
      simp [State.writeReg, hs.busyNotDone hb]⟩
  all_goals exact wellFormed_congr hs rfl rfl rfl rfl rfl

theorem writeWindow_wellFormed {s : State} {off : Nat} {w : Window} (v : Word) (h4 : off % 4 = 0)
    (hw : w.contains off = true) (hs : s.WellFormed) : (s.writeWindow off v w).WellFormed := by
  cases hwr : w.hostWritable
  · rwa [writeWindow_readOnly hwr]
  · rw [writeWindow_writable hwr]
    obtain ⟨hlo, hhi⟩ := word_within_window h4 hw
    exact ⟨setBytes_wf hs.memCanonical _ _, setBytes_mapped w hs.memMapped hlo hhi, hs.cfgLegal, hs.busyPending,
      hs.busyNotDone⟩

theorem writeTarget_wellFormed {s : State} {off : Nat} {x : Target} (v : Word) (hx : busTarget off = .ok x)
    (hs : s.WellFormed) : (s.writeTarget off v x).WellFormed := by
  cases x with
  | reg r => exact writeReg_wellFormed v r hs
  | window w =>
    obtain ⟨h4, hw⟩ := busTarget_window_iff.1 hx
    exact writeWindow_wellFormed v h4 hw hs

theorem hostReset_wellFormed (s : State) : (hostReset s).WellFormed :=
  ⟨List.Pairwise.nil, nofun, rfl, rfl, nofun⟩

theorem hostStep_wellFormed {s t : State} (h : hostStep s = .next t) (hs : s.WellFormed) : t.WellFormed := by
  rcases hostStep_effect h with ⟨-, ht⟩ | ⟨off, v, rest, -, rfl⟩ | ⟨off, v, rest, x, -, hx, rfl⟩ | ⟨rest, -, rfl⟩
  · rw [ht]
    exact wellFormed_congr hs rfl rfl rfl rfl rfl
  · exact wellFormed_congr hs rfl rfl rfl rfl rfl
  · exact writeTarget_wellFormed _ hx (wellFormed_congr hs rfl rfl rfl rfl rfl)
  · exact hostReset_wellFormed _

theorem hostWritable_apart_schedules {w : Window} (h : w.hostWritable = true) :
    w.base + w.size ≤ 0x200 ∨ 0x10000 ≤ w.base := by
  cases w
  case state => exact .inl (by decide)
  case keyBuf => exact .inl (by decide)
  case msgIn => exact .inr (by decide)
  all_goals cases h

/-- The host cannot write the schedule windows (10_state.md R41, R42). -/
theorem byteAt_writeTarget_schedules {s : State} {off a : Nat} {v : Word} {x : Target} (hx : busTarget off = .ok x)
    (hlo : 0x200 ≤ a) (hhi : a < 0x5E0) : (s.writeTarget off v x).mem.byteAt a = s.mem.byteAt a := by
  cases x with
  | reg r => rw [State.writeTarget, writeReg_mem]
  | window w =>
    obtain ⟨h4, hw⟩ := busTarget_window_iff.1 hx
    have hwithin := word_within_window h4 hw
    cases hwr : w.hostWritable
    · rw [State.writeTarget, writeWindow_readOnly hwr]
    · have hapart := hostWritable_apart_schedules hwr
      rw [State.writeTarget, writeWindow_writable hwr]
      refine byteAt_setBytes_outside _ _ _ _ ?_
      rw [show (quadList (quadOfWord v)).length = 4 from rfl]
      omega

theorem hostStep_schedulesValid {s t : State} (h : hostStep s = .next t) (hl : s.cfg.legal) (hs : s.SchedulesValid) :
    t.SchedulesValid := by
  rcases hostStep_effect h with ⟨-, ht⟩ | ⟨off, v, rest, -, rfl⟩ | ⟨off, v, rest, x, -, hx, rfl⟩ | ⟨rest, -, rfl⟩
  · rw [ht]
    exact schedulesValid_congr hl rfl (fun _ => rfl) (fun _ _ _ => rfl) hs
  · exact schedulesValid_congr hl rfl (fun sel => by cases sel <;> rfl) (fun _ _ _ => rfl) hs
  · exact schedulesValid_congr hl (writeTarget_cfg _ _ _ _) (writeTarget_valid _ _ _ _)
      (fun _ ha ha' => byteAt_writeTarget_schedules hx ha ha') hs
  · intro sel hsel
    cases sel <;> cases hsel

/-! Every step. -/

theorem step_cases {s t : State} (h : step s = .next t) :
    (∃ w, s.sequencerWord = some w ∧ runCommand w s = .next t) ∨ (s.sequencerWord = none ∧ hostStep s = .next t) := by
  cases hw : s.sequencerWord with
  | none => exact .inr ⟨rfl, step_host hw ▸ h⟩
  | some w => exact .inl ⟨w, rfl, step_sequencer hw ▸ h⟩

/-- Settles O58: each kind of step, the sequencer's and the host's, keeps the form. -/
theorem stepKeepsForm : Obligations.StepKeepsForm := by
  intro s t hs h
  rcases step_cases h with ⟨w, -, h⟩ | ⟨-, h⟩
  · exact runCommand_wellFormed h hs
  · exact hostStep_wellFormed h hs

/-- Settles O59: each kind of step keeps the meaning of the validity bits, a legal CFG keeping the schedules within
their windows. -/
theorem stepKeepsValidSchedules : Obligations.StepKeepsValidSchedules := by
  intro s t hs hv h
  rcases step_cases h with ⟨w, -, h⟩ | ⟨-, h⟩
  · exact runCommand_schedulesValid h hs.cfgLegal hv
  · exact hostStep_schedulesValid h hs.cfgLegal hv

/-! The interrupt, the inputs, CFG and the validity bits. -/

/-- Settles O7: a completion sets DONE and leaves IE. -/
theorem irqFollowsDoneAndEnable : Obligations.IrqFollowsDoneAndEnable := by
  refine ⟨fun _ => rfl, rfl, fun i s t h => ?_⟩
  obtain ⟨e, u, hu, rfl⟩ := exec_ends h
  have hie : u.ie = s.ie := by rw [writes_frame hu]
  simp [State.irq, hie]

theorem writes_inputs {s u : State} {i : Instr} {e : ErrCode} (h : Writes s i e u) :
    u.opa = s.opa ∧ u.opb = s.opb ∧ u.opm = s.opm ∧ u.keyLen = s.keyLen ∧ u.inLen = s.inLen ∧ u.cfgReq = s.cfgReq ∧
      u.ie = s.ie ∧ u.host = s.host ∧ u.rdata = s.rdata := by
  rw [writes_frame h]
  exact ⟨rfl, rfl, rfl, rfl, rfl, rfl, rfl, rfl, rfl⟩

/-- Settles O10: the registers by the frame of a command's writes, the bytes by where its writes lie. -/
theorem commandsKeepTheirInputs : Obligations.CommandsKeepTheirInputs := by
  intro i s t h
  obtain ⟨e, u, hu, rfl⟩ := exec_ends h
  have hnb := nbWords_pos s.cfg
  have hbuf := bufBytes_bounds
  obtain ⟨hopa, hopb, hopm, hkeyLen, hinLen, hcfgReq, hie, hhost, hrdata⟩ := writes_inputs hu
  refine ⟨hopa, hopb, hopm, hkeyLen, hinLen, hcfgReq, hie, hhost, hrdata, ?_⟩
  rw [finish_mem]
  refine ⟨?_, ?_, ?_⟩
  · rintro a ⟨hlo, hhi⟩
    exact writes_byteAt hu (.inr (by omega)) (.inl (by omega))
  · rintro a ⟨hlo, hhi⟩
    exact writes_byteAt hu (.inr (by omega)) (.inr (by omega))
  · intro a hlo hhi
    exact writes_byteAt hu (.inr hlo) (.inl (by omega))

/-- A format-N word is the word of the command it decodes to (30_encoding.md R101, R105). -/
theorem encode_of_decode_formatN {w : Word} {i : Instr} (h : decode w = .ok i)
    (hi : ∀ sel rnd, i ≠ .addRoundKey sel rnd) : encode i = w := by
  have table : ∀ p ∈ opcodesN, encode p.2 = BitVec.ofNat 32 p.1 := by decide
  unfold decode at h
  split at h
  · split at h
    · cases h
      exact absurd rfl (hi _ _)
    · cases h
  · split at h
    · cases h
    next j hj =>
      split at h
      next hz =>
        cases h
        obtain ⟨l₁, l₂, hl, -⟩ := List.lookup_eq_some_iff.1 hj
        have hmem : (opcField w, i) ∈ opcodesN := hl ▸ List.mem_append_right _ List.mem_cons_self
        refine (table _ hmem).trans (BitVec.eq_of_toNat_eq ?_)
        have hhigh := congrArg BitVec.toNat hz
        have hlt := w.isLt
        simp only [opcField, BitVec.extractLsb'_toNat, BitVec.toNat_ofNat, BitVec.ofNat_eq_ofNat,
          Nat.shiftRight_eq_div_pow, Nat.reducePow] at hhigh ⊢
        omega
      next => cases h

/-- A host step that changes CFG is a reset. -/
theorem hostStep_cfg {s t : State} (h : hostStep s = .next t) (hne : t.cfg ≠ s.cfg) :
    ∃ rest, s.host = .reset :: rest := by
  rcases hostStep_effect h with ⟨-, ht⟩ | ⟨off, v, rest, -, rfl⟩ | ⟨off, v, rest, x, -, -, rfl⟩ | ⟨rest, hh, -⟩
  · exact absurd (congrArg State.cfg ht) hne
  · exact absurd rfl hne
  · exact absurd (writeTarget_cfg _ _ _ _) hne
  · exact ⟨rest, hh⟩

/-- Settles O11: of the commands only CONFIGURE writes CFG, and only one word decodes to it; of the host's moves only
reset does. -/
theorem onlyConfigureChangesCfg : Obligations.OnlyConfigureChangesCfg := by
  intro s t h hne
  rcases step_cases h with ⟨w, hw, h⟩ | ⟨hw, h⟩
  · left
    rcases runCommand_ends h with ⟨i, hi, e, u, hu, rfl⟩ | rfl
    · have hcfg : i = .configure := by
        by_contra hi'
        exact hne ((writes_cfg hu).trans (if_neg hi'))
      subst hcfg
      rw [hw, ← encode_of_decode_formatN hi nofun]
      rfl
    · exact absurd rfl hne
  · exact .inr ⟨hw, hostStep_cfg h hne⟩

/-- The validity bits after a command that answers a next state (10_state.md R43). -/
theorem exec_valid {i : Instr} {s t : State} (h : exec i s = .next t) (sel : Sched) :
    t.status.valid sel =
      if i = .configure then false
      else if t.status.err = .ok ∧ writesSchedule i sel = true then true else s.status.valid sel := by
  obtain ⟨e, u, hu, rfl⟩ := exec_ends h
  refine Eq.trans ?_ (writes_valid hu sel)
  cases sel <;> rfl

/-- The validity bits after a host step: a reset clears them, anything else leaves them (10_state.md R43). -/
theorem hostStep_valid {s t : State} (h : hostStep s = .next t) (sel : Sched) :
    t.status.valid sel = if s.host.head? = some .reset then false else s.status.valid sel := by
  rcases hostStep_effect h with ⟨hne, ht⟩ | ⟨off, v, rest, hh, rfl⟩ | ⟨off, v, rest, x, hh, -, rfl⟩ | ⟨rest, hh, rfl⟩
  · rw [if_neg hne, ht]
  · cases sel <;> simp [hh, movedOn]
  · simp [hh, movedOn]
  · cases sel <;> simp [hh, hostReset, State.reset]

/-- Settles O12, for both schedules at once by `exec_valid` and `hostStep_valid`. -/
theorem validityBitsFollowTheRule : Obligations.ValidityBitsFollowTheRule := by
  refine ⟨fun i s t h => ⟨?_, ?_⟩, fun s t hw h => ?_⟩
  · simpa only [valid_a, writesSchedule_iff, wholeKeyCommand_a] using exec_valid h .a
  · simpa only [valid_b, writesSchedule_iff, wholeKeyCommand_b] using exec_valid h .b
  · have hvalid := hostStep_valid (step_host hw ▸ h)
    have hA := hvalid .a
    have hB := hvalid .b
    refine ⟨fun hr => ?_, fun hr => ?_⟩
    · rw [if_pos hr] at hA hB
      exact ⟨hA, hB⟩
    · rw [if_neg hr] at hA hB
      exact ⟨hA, hB⟩

end Sys2Proof.Machine

/-! PROOFS. The address map, STATUS, and the registers as the host reads and writes them. -/

namespace Sys2Proof.Machine

open Sys2Proof.Statements

/-- Settles O45, clause by clause by the address decoder's inversions. -/
theorem addressMapIsTotal : Obligations.AddressMapIsTotal := by
  intro off hlt h4
  refine ⟨busTarget_reserved_iff hlt h4, fun r => busTarget_reg_iff, fun w => ?_⟩
  rw [busTarget_window_iff, contains_iff]
  exact and_iff_right h4

/-! STATUS as a word. -/

/-- The layout of STATUS, bit by bit, every bit outside the named fields 0 (10_state.md R24). -/
theorem word_getLsbD (t : Status) {i : Nat} (hi : i < 32) :
    t.word.getLsbD i =
      if i = 0 then t.busy else if i = 1 then t.done else if 4 ≤ i ∧ i < 8 then t.err.code.getLsbD (i - 4)
      else if i = 8 then t.ksaValid else if i = 9 then t.ksbValid else if i = 16 then t.errSticky
      else if i = 17 then t.busyViol else false := by
  rw [Status.word]
  repeat rw [BitVec.getLsbD_append]
  interval_cases i <;> simp

/-- A field of STATUS, from its bits. -/
theorem word_extract (t : Status) (lo n : Nat) (f : BitVec n) (h : ∀ i < n, t.word.getLsbD (lo + i) = f.getLsbD i) :
    t.word.extractLsb' lo n = f := by
  refine BitVec.eq_of_getLsbD_eq fun i hi => ?_
  rw [BitVec.getLsbD_extractLsb', h i hi, decide_eq_true hi, Bool.true_and]

/-- A range of bits outside the named fields reads 0. -/
theorem word_reserved (t : Status) (lo n : Nat)
    (h : 2 ≤ lo ∧ lo + n ≤ 4 ∨ 10 ≤ lo ∧ lo + n ≤ 16 ∨ 18 ≤ lo ∧ lo + n ≤ 32) : t.word.extractLsb' lo n = 0 := by
  refine word_extract t lo n 0 fun i hi => ?_
  rw [word_getLsbD t (by omega), if_neg (by omega), if_neg (by omega), if_neg (by omega), if_neg (by omega),
    if_neg (by omega), if_neg (by omega), if_neg (by omega), BitVec.ofNat_eq_ofNat, BitVec.getLsbD_zero]

theorem word_errCode (t : Status) : t.word.extractLsb' 4 4 = t.err.code := by
  refine word_extract t 4 4 _ fun i hi => ?_
  rw [word_getLsbD t (by omega), if_neg (by omega), if_neg (by omega), if_pos (by omega), Nat.add_sub_cancel_left]

/-- A host write to STATUS clears exactly the bits 1, 16 and 17 that it has set (10_state.md R24). -/
theorem word_writeOneToClear (t : Status) (v : Word) :
    (t.writeOneToClear v).word = t.word &&& ~~~(v &&& 0x00030002) := by
  refine BitVec.eq_of_getLsbD_eq fun i hi => ?_
  rw [word_getLsbD _ hi, BitVec.getLsbD_and, word_getLsbD _ hi]
  interval_cases i <;> simp

/-- Settles O48: STATUS takes writes at any time. -/
theorem statusFieldsAndClears : Obligations.StatusFieldsAndClears := by
  refine ⟨fun t => ⟨word_getLsbD t (by decide), word_getLsbD t (by decide), word_reserved t 2 2 (by decide),
    word_errCode t, word_getLsbD t (by decide), word_getLsbD t (by decide), word_reserved t 10 6 (by decide),
    word_getLsbD t (by decide), word_getLsbD t (by decide), word_reserved t 18 14 (by decide)⟩,
    fun s v rest hturn hh => ?_⟩
  refine ⟨(movedOn s rest).setStatus (s.status.writeOneToClear v), ?_, word_writeOneToClear _ _, rfl⟩
  rw [step_write hturn hh]
  exact hostWrite_effect (busTarget_offset .status) fun _ => rfl

/-! The registers while BUSY = 0. -/

section Idle

variable {s : State} {off : BitVec 18} {v : Word} {rest : List HostMove}

theorem step_write_idle {x : Target} (hp : s.pending = none) (hb : s.status.busy = false)
    (hh : s.host = .write off v :: rest) (hx : busTarget off.toNat = .ok x) :
    step s = .next ((movedOn s rest).writeTarget off.toNat v x) := by
  rw [step_write (.inl hp) hh]
  exact hostWrite_effect hx fun hbusy => absurd (hb.symm.trans hbusy) nofun

theorem step_write_reg (r : Reg) (hp : s.pending = none) (hb : s.status.busy = false)
    (hh : s.host = .write off v :: rest) (hr : r.offset = off.toNat) :
    step s = .next ((movedOn s rest).writeReg v r) := step_write_idle hp hb hh (busTarget_reg_iff.2 hr)

theorem step_read_reg (r : Reg) (hp : s.pending = none) (hb : s.status.busy = false)
    (hh : s.host = .read off :: rest) (hr : r.offset = off.toNat) :
    step s = .next { movedOn s rest with rdata := some (s.regWord r) } := by
  rw [step_read (.inl hp) hh]
  exact (hostRead_reg (s := movedOn s rest) hr hb).trans (by cases r <;> rfl)

/-- A write to a window the host may not write changes nothing (20_memory.md R77). -/
theorem step_write_readOnly_window (w : Window) (hp : s.pending = none) (hb : s.status.busy = false)
    (hh : s.host = .write off v :: rest) (h4 : off.toNat % 4 = 0) (hw : inRange w.base w.size off.toNat)
    (hro : w.hostWritable = false) : step s = .next (movedOn s rest) := by
  rw [step_write_idle hp hb hh (busTarget_window_iff.2 ⟨h4, contains_iff.2 hw⟩), State.writeTarget,
    writeWindow_readOnly hro]

end Idle

theorem ctrlWord_eq (ie : Bool) : ctrlWord ie = if ie then 1 else 0 := by cases ie <;> rfl

/-- Settles O50: a write has its register's effect, a read returns what its register holds. -/
theorem registerWritesAndReads : Obligations.RegisterWritesAndReads := by
  intro s v rest hp hb
  refine ⟨fun hh => step_write_reg .ctrl hp hb hh rfl, fun hh => step_write_reg .cfgReq hp hb hh rfl,
    fun hh => step_write_reg .opa hp hb hh rfl, fun hh => step_write_reg .opb hp hb hh rfl,
    fun hh => step_write_reg .opm hp hb hh rfl, fun hh => step_write_reg .keyLen hp hb hh rfl,
    fun hh => step_write_reg .inLen hp hb hh rfl, fun off hh hoff => ?_, fun p hpair hh => ?_⟩
  · rcases hoff with rfl | rfl | rfl | rfl | rfl | rfl | rfl | ⟨h4, hA | hB | hout⟩
    · exact step_write_reg .id hp hb hh rfl
    · exact step_write_reg .cfg hp hb hh rfl
    · exact step_write_reg .res0 hp hb hh rfl
    · exact step_write_reg .res1 hp hb hh rfl
    · exact step_write_reg .res2 hp hb hh rfl
    · exact step_write_reg .outLen hp hb hh rfl
    · exact step_write_reg .elapsed hp hb hh rfl
    · exact step_write_readOnly_window .schedA hp hb hh h4 hA rfl
    · exact step_write_readOnly_window .schedB hp hb hh h4 hB rfl
    · exact step_write_readOnly_window .msgOut hp hb hh h4 hout rfl
  · rw [← ctrlWord_eq] at hpair
    have hmem : p ∈ regsInOrder.map fun r => (BitVec.ofNat 18 r.offset, s.regWord r) := hpair
    obtain ⟨r, -, rfl⟩ := List.mem_map.1 hmem
    exact step_read_reg r hp hb hh (by cases r <;> rfl)

end Sys2Proof.Machine

/-! PROOFS. Host accesses: bus errors, the accesses while BUSY = 1, the words of the windows, the repeated read. -/

namespace Sys2Proof.Machine

open Sys2Proof.Statements

/-! What one access answers. -/

section Access

variable {off : Nat} {v : Word} {s : State} {f : Fault} {x : Target}

theorem busTarget_misaligned (h : off % 4 ≠ 0) : busTarget off = .error (.busMisaligned off) := if_pos h

/-- An aligned offset that is not reserved selects a location. -/
theorem exists_target (hlt : off < 2 ^ 18) (h4 : off % 4 = 0) (hres : ¬ reservedOffset off) :
    ∃ x, busTarget off = .ok x := by
  rcases busTarget_cases off with ⟨hne, -⟩ | ⟨-, r, -, h⟩ | ⟨-, w, -, h⟩ | ⟨-, h⟩
  · exact absurd h4 hne
  · exact ⟨_, h⟩
  · exact ⟨_, h⟩
  · exact absurd ((busTarget_reserved_iff hlt h4).1 h) hres

theorem hostWrite_fault (hx : busTarget off = .error f) : hostWrite off v s = .fault f := by
  rw [hostWrite, hx]

theorem hostRead_fault (hx : busTarget off = .error f) : hostRead off s = .fault f := by
  rw [hostRead, hx]

theorem writableWhileBusy_iff : writableWhileBusy x = true ↔ x = .reg .status ∨ x = .reg .ctrl := by
  cases x with
  | reg r => cases r <;> decide
  | window w => cases w <;> decide

theorem readableWhileBusy_iff :
    readableWhileBusy x = true ↔ x = .reg .id ∨ x = .reg .status ∨ x = .reg .ctrl := by
  cases x with
  | reg r => cases r <;> decide
  | window w => cases w <;> decide

/-- A write while BUSY = 1 to a location not writable then is dropped (20_memory.md R84). -/
theorem hostWrite_dropped (hx : busTarget off = .ok x) (hb : s.status.busy = true)
    (hw : writableWhileBusy x = false) : hostWrite off v s = .next s.dropWrite := by
  simp [hostWrite, hx, hb, hw]

/-- A read of a location that is current returns what the location holds. -/
theorem hostRead_current (hx : busTarget off = .ok x) (hb : s.status.busy = true → readableWhileBusy x = true) :
    hostRead off s = afterRead (s.targetWord off x) fun v => .next { s with rdata := some v } := by
  cases hbusy : s.status.busy <;> simp_all [hostRead]

theorem hostRead_idle (hx : busTarget off = .ok x) (hb : s.status.busy = false) :
    hostRead off s = afterRead (s.targetWord off x) fun v => .next { s with rdata := some v } :=
  hostRead_current hx fun hbusy => absurd (hb.symm.trans hbusy) nofun

/-- A read while BUSY = 1 of a location not current then returns a draw (20_memory.md R81). -/
theorem hostRead_draw (hx : busTarget off = .ok x) (hb : s.status.busy = true) (hr : readableWhileBusy x = false) :
    hostRead off s = .next { s with rdata := some (Config.busyRead s.draws), draws := s.draws + 1 } := by
  simp [hostRead, hx, hb, hr]

/-- The data of earlier reads does not reach what a location reads as. -/
theorem targetWord_rdata (s : State) (d : Option Word) (off : Nat) (x : Target) :
    State.targetWord { s with rdata := d } off x = s.targetWord off x := by
  cases x with
  | reg r => cases r <;> rfl
  | window w => rfl

/-- A completed read, done again while BUSY = 0, returns the same data and changes nothing (20_memory.md R78). -/
theorem hostRead_again {t : State} (hb : s.status.busy = false) (h : hostRead off s = .next t) :
    hostRead off t = .next t := by
  cases hx : busTarget off with
  | error f => cases (hostRead_fault hx).symm.trans h
  | ok x =>
    rw [hostRead_idle hx hb] at h
    obtain ⟨v, hv, ht⟩ := afterRead_next.1 h
    cases ht
    refine (hostRead_idle hx (by exact hb)).trans ?_
    rw [targetWord_rdata, hv, afterRead_ok]

end Access

/-- Settles O44: the address decoder answers the fault, for a read as for a write. -/
theorem busErrorsAreHostFaults : Obligations.BusErrorsAreHostFaults := by
  intro s off v rest hturn hh
  have stops : ∀ {f}, busTarget off.toNat = .error f → step s = .fault f := by
    intro f hx
    rcases hh with hh | hh
    · rw [step_write hturn hh, hostWrite_fault hx]
    · rw [step_read hturn hh, hostRead_fault hx]
  exact ⟨fun h => stops (busTarget_misaligned h), fun h4 hres => stops ((busTarget_reserved_iff off.isLt h4).2 hres)⟩

/-- An offset that selects a register is the register's own. -/
theorem off_eq_offset {off : BitVec 18} {r : Reg} (h : busTarget off.toNat = .ok (.reg r)) :
    off = BitVec.ofNat 18 r.offset := by
  rw [busTarget_reg_iff.1 h, BitVec.ofNat_toNat, BitVec.setWidth_eq]

/-- Settles O46: only STATUS and CTRL are writable while BUSY = 1. -/
theorem busyWritesAreDropped : Obligations.BusyWritesAreDropped := by
  intro s off v rest hturn hb hh h4
  rw [step_write hturn hh]
  refine ⟨fun hres hstatus hctrl => ?_, ?_, ?_, fun hres => ?_⟩
  · obtain ⟨x, hx⟩ := exists_target off.isLt h4 hres
    refine hostWrite_dropped hx hb (Bool.eq_false_iff.2 fun hw => ?_)
    rcases writableWhileBusy_iff.1 hw with rfl | rfl
    · exact hstatus (off_eq_offset hx)
    · exact hctrl (off_eq_offset hx)
  · rintro rfl
    exact hostWrite_effect (busTarget_offset .ctrl) fun _ => rfl
  · rintro rfl
    exact hostWrite_effect (busTarget_offset .status) fun _ => rfl
  · exact hostWrite_fault ((busTarget_reserved_iff off.isLt h4).2 hres)

/-- Settles O47: only ID, STATUS and CTRL are current while BUSY = 1. -/
theorem busyReadsAreDraws : Obligations.BusyReadsAreDraws := by
  intro s off rest hturn hb hh h4
  rw [step_read hturn hh]
  refine ⟨?_, ?_, ?_, fun hres hid hstatus hctrl => ?_⟩
  · rintro rfl
    exact hostRead_current (busTarget_offset .id) fun _ => rfl
  · rintro rfl
    exact hostRead_current (busTarget_offset .status) fun _ => rfl
  · rintro rfl
    rw [← ctrlWord_eq]
    exact hostRead_current (busTarget_offset .ctrl) fun _ => rfl
  · obtain ⟨x, hx⟩ := exists_target off.isLt h4 hres
    refine ⟨_, hostRead_draw hx hb (Bool.eq_false_iff.2 fun hr => ?_)⟩
    rcases readableWhileBusy_iff.1 hr with rfl | rfl | rfl
    · exact hid (off_eq_offset hx)
    · exact hstatus (off_eq_offset hx)
    · exact hctrl (off_eq_offset hx)

/-- Settles O51: a read changes the data returned and the draw counter, and repeats while BUSY = 0. -/
theorem hostReadsHaveNoSideEffect : Obligations.HostReadsHaveNoSideEffect := by
  intro s t off rest hturn hh h
  rw [step_read hturn hh] at h
  refine ⟨?_, fun _ hb => hostRead_again (s := movedOn s rest) hb h⟩
  obtain ⟨v, rfl | rfl⟩ := hostRead_next h
  · exact ⟨v, s.draws, rfl⟩
  · exact ⟨v, s.draws + 1, rfl⟩

/-! The words of the windows. -/

/-- Byte b of a word holds its bits [8b+7:8b] (20_memory.md R71). -/
theorem quadList_quadOfWord_getElem? (v : Word) {b : Nat} (hb : b < 4) :
    (quadList (quadOfWord v))[b]? = some (v.extractLsb' (8 * b) 8) := by
  interval_cases b <;> rfl

/-- The four bytes of a word, put together again, are the word. -/
theorem wordOfQuad_quadOfWord (v : Word) : wordOfQuad (quadOfWord v) = v := by
  simp only [wordOfQuad, quadOfWord]
  rw [BitVec.extractLsb'_append_extractLsb'_eq_extractLsb' (show 24 = 16 + 8 from rfl),
    BitVec.extractLsb'_append_extractLsb'_eq_extractLsb' (show 16 = 8 + 8 from rfl),
    BitVec.extractLsb'_append_extractLsb'_eq_extractLsb' (show 8 = 0 + 8 from rfl)]
  exact BitVec.extractLsb'_eq_self

/-- A word written to memory is its four bytes, lowest first. -/
theorem byteAt_setBytes_word (m : Memory) (off : Nat) (v : Word) {b : Nat} (hb : b < 4) :
    (m.setBytes off (quadList (quadOfWord v))).byteAt (off + b) = some (v.extractLsb' (8 * b) 8) := by
  rw [byteAt_setBytes_inside m off b (quadList (quadOfWord v)) hb, ← quadList_quadOfWord_getElem? v hb]
  exact (List.getElem?_eq_getElem _).symm

/-- Four bytes that hold a word's bytes, lowest first, read as the word. -/
theorem busWord_of_bytes {m : Memory} {off : Nat} {v : Word}
    (h : ∀ b, b < 4 → m.byteAt (off + b) = some (v.extractLsb' (8 * b) 8)) : m.busWord off = .ok v := by
  have hread : m.readBytes off 4 = .ok (quadList (quadOfWord v)) :=
    (readBytes_ok_iff _ _ _ _).2 ⟨rfl, fun b hb => (h b hb).trans (quadList_quadOfWord_getElem? v hb).symm⟩
  rw [Memory.busWord, hread]
  exact congrArg Except.ok (wordOfQuad_quadOfWord v)

/-- A read of a window's word while BUSY = 0. -/
theorem step_read_window {s : State} {off : BitVec 18} {rest : List HostMove} (hp : s.pending = none)
    (hb : s.status.busy = false) (hh : s.host = .read off :: rest) (h4 : off.toNat % 4 = 0)
    (hw : ∃ w : Window, inRange w.base w.size off.toNat) :
    step s = afterRead (s.mem.busWord off.toNat) fun v => .next { movedOn s rest with rdata := some v } := by
  obtain ⟨w, hw⟩ := hw
  rw [step_read (.inl hp) hh]
  exact hostRead_idle (busTarget_window_iff.2 ⟨h4, contains_iff.2 hw⟩) hb

/-- A write of a window's word while BUSY = 0, where the host may write. -/
theorem step_write_window {s : State} {off : BitVec 18} {v : Word} {rest : List HostMove} (hp : s.pending = none)
    (hb : s.status.busy = false) (hh : s.host = .write off v :: rest) (h4 : off.toNat % 4 = 0)
    (hw : ∃ w : Window, w.hostWritable = true ∧ inRange w.base w.size off.toNat) :
    step s = .next ((movedOn s rest).setMem (s.mem.setBytes off.toNat (quadList (quadOfWord v)))) := by
  obtain ⟨w, hwritable, hw⟩ := hw
  rw [step_write_idle hp hb hh (busTarget_window_iff.2 ⟨h4, contains_iff.2 hw⟩), State.writeTarget,
    writeWindow_writable hwritable]
  rfl

/-- Settles O49: a window's word is its four bytes, lowest first, written and read. -/
theorem windowAccessesAreLittleEndian : Obligations.WindowAccessesAreLittleEndian := by
  intro s off v rest hp hb h4
  refine ⟨fun hh hw => ?_, fun hh hw hbytes => ?_⟩
  · have hw : ∃ w : Window, w.hostWritable = true ∧ inRange w.base w.size off.toNat := by
      rcases hw with hw | hw | hw
      · exact ⟨.state, rfl, hw⟩
      · exact ⟨.keyBuf, rfl, hw⟩
      · exact ⟨.msgIn, rfl, hw⟩
    refine ⟨_, step_write_window hp hb hh h4 hw, fun b hb => byteAt_setBytes_word _ _ v hb, fun a ha => ?_, rfl⟩
    refine byteAt_setBytes_outside _ _ _ _ ?_
    by_contra! hin
    exact ha hin
  · have hw : ∃ w : Window, inRange w.base w.size off.toNat := by
      rcases hw with hw | hw | hw | hw | hw | hw
      · exact ⟨.state, hw⟩
      · exact ⟨.keyBuf, hw⟩
      · exact ⟨.msgIn, hw⟩
      · exact ⟨.schedA, hw⟩
      · exact ⟨.schedB, hw⟩
      · exact ⟨.msgOut, hw⟩
    rw [step_read_window hp hb hh h4 hw, busWord_of_bytes hbytes, afterRead_ok]

end Sys2Proof.Machine

/-! PROOFS. Bytes that nothing has written: where reading one stops, and where a command may give one a value
(20_memory.md R90; 10_state.md R44, R46). -/

namespace Sys2Proof.Machine

open Sys2Proof.Statements

/-! Reads that meet a byte without a value. -/

/-- The outcome is the stop at a byte that holds no value. -/
def StopsUnwritten (r : Result) : Prop := ∃ x, r = .fault (.unwrittenByte x)

/-- Every byte that a completed read covers holds a value. -/
theorem byteAt_of_readBytes {m : Memory} {lo n a : Nat} {bs : List Byte} (h : m.readBytes lo n = .ok bs)
    (ha : inRange lo n a) : m.byteAt a ≠ none := by
  obtain ⟨hlo, hhi⟩ := ha
  intro hn
  obtain ⟨x, hx⟩ := readBytes_fault (m := m) (a := lo) (n := n) (k := a - lo) (by omega)
    (by rwa [Nat.add_sub_cancel' hlo])
  cases hx.symm.trans h

theorem byteAt_of_readQuads {m : Memory} {lo n a : Nat} {qs : List Quad} (h : m.readQuads lo n = .ok qs)
    (ha : inRange lo (4 * n) a) : m.byteAt a ≠ none := by
  obtain ⟨bs, hbs, -⟩ := readQuads_ok.1 h
  exact byteAt_of_readBytes hbs ha

theorem readBytes_stops {m : Memory} {lo n : Nat} {f : Fault} (h : m.readBytes lo n = .error f) :
    ∃ x, f = .unwrittenByte x := by
  obtain ⟨k, -, -, hf⟩ := readBytes_error h
  exact ⟨_, hf⟩

theorem readQuads_stops {m : Memory} {lo n : Nat} {f : Fault} (h : m.readQuads lo n = .error f) :
    ∃ x, f = .unwrittenByte x := by
  unfold Memory.readQuads at h
  split at h
  next g hg =>
    cases h
    exact readBytes_stops hg
  next => cases h

theorem busWord_unwritten {m : Memory} {off b : Nat} (hb : b < 4) (hn : m.byteAt (off + b) = none) :
    ∃ x, m.busWord off = .error (.unwrittenByte x) := by
  obtain ⟨x, hx⟩ := readBytes_fault hb hn
  exact ⟨x, by rw [Memory.busWord, hx]⟩

/-- A read followed by a meaning stops when the read does, or else when the meaning does. -/
theorem afterRead_stops {α : Type} {r : Except Fault α} {k : α → Result}
    (hr : ∀ {f}, r = .error f → ∃ x, f = .unwrittenByte x) (hk : ∀ a, r = .ok a → StopsUnwritten (k a)) :
    StopsUnwritten (afterRead r k) := by
  cases r with
  | ok a => exact hk a rfl
  | error f =>
    obtain ⟨x, rfl⟩ := hr rfl
    exact ⟨x, rfl⟩

/-! The commands, once their checks have passed. -/

section Commands

variable {s : State} {a : Nat} {i : Instr}

/-- A check that would report an error has passed when none is reported. -/
theorem check_passed {c : Prop} [Decidable c] {e rest : ErrCode} (h : (if c then e else rest) = .ok) (he : e ≠ .ok) :
    ¬ c ∧ rest = .ok := by
  split at h
  next => exact absurd h he
  next hc => exact ⟨hc, h⟩

/-- The checks of ADD_ROUND_KEY, for both schedules (60_exceptions.md R303). -/
theorem errorOf_addRoundKey (s : State) (sel : Sched) (rnd : Nat) :
    errorOf (.addRoundKey sel rnd) s =
      if s.status.valid sel = false then .noSchedule else if s.cfg.rounds < rnd then .range else .ok := by
  cases sel <;> rfl

/-- The key-length checks of 60_exceptions.md R303, passed. -/
theorem withKeyLength_stops {least : Nat} {rest : ErrCode} {k : Result}
    (he : (if s.keyLen.toNat < least then ErrCode.keyLength else if 64 < s.keyLen.toNat then .length else rest) = .ok)
    (hk : rest = .ok → StopsUnwritten k) : StopsUnwritten (withKeyLength least s k) := by
  obtain ⟨hleast, he⟩ := check_passed he nofun
  obtain ⟨hmost, hrest⟩ := check_passed he nofun
  rw [withKeyLength, if_neg hleast, if_neg (by exact hmost)]
  exact hk hrest

/-- The message-length check of 60_exceptions.md R303, passed. -/
theorem withMessageLength_stops {rest : ErrCode} {k : Result}
    (he : (if bufBytes < s.inLen.toNat then ErrCode.length else rest) = .ok) (hk : rest = .ok → StopsUnwritten k) :
    StopsUnwritten (withMessageLength s k) := by
  obtain ⟨hlen, hrest⟩ := check_passed he nofun
  rw [withMessageLength, if_neg hlen]
  exact hk hrest

variable (hn : s.mem.byteAt a = none)
include hn

theorem layer_stops {f : List Quad → List Quad} (ha : inRange 0x040 (4 * s.cfg.nbWords) a) :
    StopsUnwritten (layer f s) :=
  afterRead_stops readQuads_stops fun _ hm => absurd hn (byteAt_of_readQuads hm ha)

theorem layerCommand_stops (hi : i ∈ layerCommands.map fun p => p.2.1)
    (ha : inRange 0x040 (4 * s.cfg.nbWords) a) : StopsUnwritten (exec i s) := by
  have table : ∀ p ∈ layerCommands, exec p.2.1 s = layer p.2.2 s := by
    simp only [layerCommands, List.cons_append, List.nil_append, List.forall_mem_cons]
    exact ⟨rfl, rfl, rfl, rfl, rfl, rfl, rfl, rfl, nofun⟩
  obtain ⟨p, hp, rfl⟩ := List.mem_map.1 hi
  exact table p hp ▸ layer_stops hn ha

theorem addRoundKey_stops {sel : Sched} {rnd : Nat} (he : errorOf (.addRoundKey sel rnd) s = .ok)
    (ha : inRange 0x040 (4 * s.cfg.nbWords) a ∨ inRange (schedWindow sel).base (4 * s.cfg.schedLen) a) :
    StopsUnwritten (exec (.addRoundKey sel rnd) s) := by
  rw [errorOf_addRoundKey] at he
  obtain ⟨hvalid, he⟩ := check_passed he nofun
  obtain ⟨hround, -⟩ := check_passed he nofun
  have run : exec (.addRoundKey sel rnd) s = afterRead (readSchedule sel s) fun w =>
      layer (fun m => addRoundKey m (roundKey w s.cfg.nbWords rnd)) s := (if_neg hvalid).trans (if_neg hround)
  rw [run]
  refine afterRead_stops readQuads_stops fun w hw => ?_
  rcases ha with ha | ha
  · exact layer_stops hn ha
  · exact absurd hn (byteAt_of_readQuads hw ha)

theorem wholeBlock_stops {f : List Byte → List Quad → List Quad → Nat → Nat → List Byte}
    (hA : s.status.ksaValid = true) (hB : s.status.ksbValid = true)
    (ha : inRange 0x040 (4 * s.cfg.nbWords) a ∨ inRange 0x200 (4 * s.cfg.schedLen) a ∨
      inRange 0x400 (4 * s.cfg.schedLen) a) : StopsUnwritten (wholeBlock f s) := by
  rw [wholeBlock, if_neg (by simp [hA, hB])]
  refine afterRead_stops readQuads_stops fun wA hwA => afterRead_stops readQuads_stops fun wB hwB => ?_
  rcases ha with ha | ha | ha
  · exact layer_stops hn ha
  · exact absurd hn (byteAt_of_readQuads hwA ha)
  · exact absurd hn (byteAt_of_readQuads hwB ha)

theorem blockCommand_stops (hi : i = .encryptBlock ∨ i = .decryptBlock) (he : errorOf i s = .ok)
    (ha : inRange 0x040 (4 * s.cfg.nbWords) a ∨ inRange 0x200 (4 * s.cfg.schedLen) a ∨
      inRange 0x400 (4 * s.cfg.schedLen) a) : StopsUnwritten (exec i s) := by
  have passed : s.status.ksaValid = true ∧ s.status.ksbValid = true := by
    rcases hi with rfl | rfl <;> simpa [errorOf] using he
  rcases hi with rfl | rfl
  · exact wholeBlock_stops hn passed.1 passed.2 ha
  · exact wholeBlock_stops hn passed.1 passed.2 ha

theorem readKey_then_stops {k : List Byte → Result} (ha : inRange 0x100 s.keyLen.toNat a) :
    StopsUnwritten (afterRead (readKey s) k) :=
  afterRead_stops readBytes_stops fun _ hk => absurd hn (byteAt_of_readBytes hk ha)

theorem readMessage_then_stops {k : List Byte → Result} (ha : inRange 0x10000 s.inLen.toNat a) :
    StopsUnwritten (afterRead (readMessage s) k) :=
  afterRead_stops readBytes_stops fun _ hp => absurd hn (byteAt_of_readBytes hp ha)

theorem frame_stops {f : Cfg → List Byte → List Byte → List Byte}
    (ha : inRange 0x100 s.keyLen.toNat a ∨ inRange 0x10000 s.inLen.toNat a) : StopsUnwritten (frame f s) := by
  rcases ha with ha | ha
  · exact readKey_then_stops hn ha
  · exact afterRead_stops readBytes_stops fun _ _ => readMessage_then_stops hn ha

theorem frameCommand_stops (hi : i = .ecbEncrypt ∨ i = .ecbDecrypt) (he : errorOf i s = .ok)
    (ha : inRange 0x100 s.keyLen.toNat a ∨ inRange 0x10000 s.inLen.toNat a) : StopsUnwritten (exec i s) := by
  rcases hi with rfl | rfl
  · exact withKeyLength_stops he fun he => withMessageLength_stops he fun _ => frame_stops hn ha
  · refine withKeyLength_stops he fun he => withMessageLength_stops he fun he => ?_
    rw [if_neg (by exact (check_passed he nofun).1)]
    exact frame_stops hn ha

theorem keyCommand_stops
    (hi : i = .keyExpand ∨ i = .keyExpandRot ∨ i = .keyExpandNorot ∨ i = .ecbEncrypt ∨ i = .ecbDecrypt)
    (he : errorOf i s = .ok) (ha : inRange 0x100 s.keyLen.toNat a) : StopsUnwritten (exec i s) := by
  rcases hi with rfl | rfl | rfl | hi
  · exact withKeyLength_stops he fun _ => readKey_then_stops hn ha
  · exact withKeyLength_stops he fun _ => readKey_then_stops hn ha
  · exact withKeyLength_stops he fun _ => readKey_then_stops hn ha
  · exact frameCommand_stops hn hi he (.inl ha)

theorem messageCommand_stops (hi : i = .pad ∨ i = .ecbEncrypt ∨ i = .ecbDecrypt) (he : errorOf i s = .ok)
    (ha : inRange 0x10000 s.inLen.toNat a) : StopsUnwritten (exec i s) := by
  rcases hi with rfl | hi
  · exact withMessageLength_stops he fun _ => readMessage_then_stops hn ha
  · exact frameCommand_stops hn hi he (.inr ha)

end Commands

/-! What stays without a value. -/

section Unwritten

variable {s t u : State} {a : Nat} {i : Instr} {e : ErrCode}

/-- A result gives no value to a byte outside it, in its window or not (10_state.md R44, R46; log 7, log 8). -/
theorem byteAt_putWindow_none {m : Memory} {w : Window} {bs : List Byte} (d : Nat) (hn : m.byteAt a = none)
    (ha : ¬ inRange w.base bs.length a) : (m.putWindow w bs d).byteAt a = none := by
  rw [Memory.putWindow, byteAt_setBytes, if_neg (by exact ha), ← Option.not_isSome_iff_eq_none,
    byteAt_forget_isSome, hn]
  exact Bool.false_ne_true

theorem byteAt_putSchedule_none {sel : Sched} {k : List Byte} {rot : Bool} (c : Cfg) (hn : s.mem.byteAt a = none)
    (ha : ¬ inRange (schedWindow sel).base (4 * c.schedLen) a) :
    (s.putSchedule sel (expand c k rot)).mem.byteAt a = none :=
  byteAt_putWindow_none _ hn (by rwa [flatten_length, expand_length])

theorem byteAt_putSchedules_none {k : List Byte} (hn : s.mem.byteAt a = none)
    (hA : ¬ inRange 0x200 (4 * s.cfg.schedLen) a) (hB : ¬ inRange 0x400 (4 * s.cfg.schedLen) a) :
    (s.putSchedules k).mem.byteAt a = none :=
  byteAt_putSchedule_none (sel := .b) s.cfg (byteAt_putSchedule_none (sel := .a) s.cfg hn hA) hB

theorem byteAt_putMessage_none {out : List Byte} (hl : out.length ≤ outBytes) (hn : s.mem.byteAt a = none)
    (ha : ¬ inRange 0x20000 (s.putMessage out).outLen.toNat a) : (s.putMessage out).mem.byteAt a = none := by
  have hbuf := bufBytes_bounds
  rw [putMessage_outLen, BitVec.toNat_ofNat, Nat.mod_eq_of_lt (by rw [outBytes] at hl; omega)] at ha
  exact byteAt_putWindow_none _ hn ha

/-- Outside the STATE columns in use, a command's writes give a value only in the words it expands and its message. -/
theorem writes_byteAt_none (h : Writes s i e u) (hn : s.mem.byteAt a = none)
    (hcols : ¬ inRange 0x040 (4 * s.cfg.nbWords) a) (hA : ¬ inRange 0x200 (4 * s.cfg.schedLen) a)
    (hB : ¬ inRange 0x400 (4 * s.cfg.schedLen) a) (hout : ¬ inRange 0x20000 u.outLen.toNat a) :
    u.mem.byteAt a = none := by
  induction h using Writes.elim with
  | error hi he => exact hn
  | results hi r0 r1 r2 => exact hn
  | columns hi hl =>
    simp only [inRange, ← hl] at hcols
    exact (byteAt_putColumns_outside (by omega)).trans hn
  | message hi hl => exact byteAt_putMessage_none hl hn hout
  | configure => exact hn
  | wholeKey sel hk hk' =>
    cases sel with
    | a => exact byteAt_putSchedule_none s.cfg hn hA
    | b => exact byteAt_putSchedule_none s.cfg hn hB
  | splitKey hk hk' => exact byteAt_putSchedules_none hn hA hB
  | frame hi hk hk' hl => exact byteAt_putMessage_none hl (byteAt_putSchedules_none hn hA hB) hout

/-- The commands that write CFG or a schedule do not write STATE. -/
theorem writes_byteAt_state (h : Writes s i e u) (hi : ¬ keepsSchedules i) (ha : a < 0x200) :
    u.mem.byteAt a = s.mem.byteAt a := by
  induction h using Writes.elim with
  | error hi' he => rfl
  | results hi' r0 r1 r2 => exact absurd hi' hi
  | columns hi' hl => exact absurd hi' hi
  | message hi' hl => exact absurd hi' hi
  | configure => rfl
  | wholeKey sel hk hk' =>
    exact byteAt_putSchedule_outside ((expand_length _ _ _).trans_le (schedLen_le_of_any _)) (.inl ha)
  | splitKey hk hk' => exact byteAt_putSchedules_outside (.inl ha)
  | frame hi' hk hk' hl =>
    exact (byteAt_putMessage_outside (by omega)).trans (byteAt_putSchedules_outside (.inl ha))

theorem execRcon_mem (h : execRcon s = .next t) : t.mem = s.mem := by
  unfold execRcon at h
  split at h
  · rw [raise_next.1 h, finish_mem]
  · rw [complete_next.1 h, finish_mem, setRes0_mem]

/-- A command that writes the STATE columns has read them, so it gives no byte of theirs a first value. -/
theorem exec_byteAt_columns (h : exec i s = .next t) (hn : s.mem.byteAt a = none)
    (ha : inRange 0x040 (4 * s.cfg.nbWords) a) : t.mem.byteAt a = none := by
  have unread : ∀ m, readColumns s ≠ .ok m := fun m hm => byteAt_of_readQuads hm ha hn
  have hlt : a < 0x200 := by
    have := nbWords_pos s.cfg
    have := ha.2
    omega
  cases i with
  | nop | gfMul | gfGcd | sbox | invSbox | mixcol | invMixcol | altMixcol | invAltMixcol =>
    obtain rfl := complete_next.1 h
    exact hn
  | gfMod | gfDiv | gfInv | gfMulmod =>
    rcases withModulus_next.1 h with ⟨-, rfl⟩ | ⟨-, rfl⟩
    · exact hn
    · exact hn
  | rcon =>
    rw [execRcon_mem h]
    exact hn
  | subBytes | invSubBytes | shiftRows | invShiftRows | mixColumns | invMixColumns | altMixColumns
  | invAltMixColumns =>
    obtain ⟨m, hm, -⟩ := layer_next.1 h
    exact absurd hm (unread m)
  | addRoundKey sel rnd =>
    rcases execAddRoundKey_next.1 h with ⟨-, rfl⟩ | ⟨-, -, rfl⟩ | ⟨-, -, w, m, -, hm, -⟩
    · exact hn
    · exact hn
    · exact absurd hm (unread m)
  | encryptBlock | decryptBlock =>
    rcases wholeBlock_next.1 h with ⟨-, rfl⟩ | ⟨-, -, wA, wB, m, -, -, hm, -⟩
    · exact hn
    · exact absurd hm (unread m)
  | keyExpand | keyExpandRot | keyExpandNorot | ecbEncrypt | ecbDecrypt | configure =>
    obtain ⟨e, u, hu, rfl⟩ := exec_ends h
    exact (writes_byteAt_state hu (by decide) hlt).trans hn
  | pad =>
    rcases withMessageLength_next.1 h with ⟨-, rfl⟩ | ⟨-, h⟩
    · exact hn
    · obtain ⟨p, -, h⟩ := afterRead_next.1 h
      obtain rfl := complete_next.1 h
      exact (byteAt_putMessage_outside (by omega)).trans hn

/-- A command gives a first value only to the schedule words it expands and to MSG_OUT below OUT_LEN. -/
theorem exec_byteAt_none (h : exec i s = .next t) (hn : s.mem.byteAt a = none)
    (hA : ¬ inRange 0x200 (4 * s.cfg.schedLen) a) (hB : ¬ inRange 0x400 (4 * s.cfg.schedLen) a)
    (hout : ¬ inRange 0x20000 t.outLen.toNat a) : t.mem.byteAt a = none := by
  by_cases hcols : inRange 0x040 (4 * s.cfg.nbWords) a
  · exact exec_byteAt_columns h hn hcols
  · obtain ⟨e, u, hu, rfl⟩ := exec_ends h
    exact writes_byteAt_none (u := u) hu hn hcols hA hB hout

end Unwritten

/-- Settles O52: the read of a window's word, the reads of each command, and the writes of each command. -/
theorem unwrittenBytesFault : Obligations.UnwrittenBytesFault := by
  refine ⟨fun s off rest b hp hb hh h4 hw hb4 hn => ?_, fun s a i he hn hreads => ?_,
    fun i s t a h hn hA hB hout => exec_byteAt_none h hn hA hB hout⟩
  · obtain ⟨x, hx⟩ := busWord_unwritten hb4 hn
    exact ⟨x, by rw [step_read_window hp hb hh h4 hw, hx, afterRead_error]⟩
  · rcases hreads with ⟨hi | hi | hi | ⟨sel, rnd, rfl⟩, ha⟩ | ⟨⟨rnd, rfl⟩ | hi, ha⟩ | ⟨⟨rnd, rfl⟩ | hi, ha⟩ |
      ⟨hi, ha⟩ | ⟨hi, ha⟩
    · exact layerCommand_stops hn hi ha
    · exact blockCommand_stops hn (.inl hi) he (.inl ha)
    · exact blockCommand_stops hn (.inr hi) he (.inl ha)
    · exact addRoundKey_stops hn he (.inl ha)
    · exact addRoundKey_stops hn he (.inr ha)
    · exact blockCommand_stops hn hi he (.inr (.inl ha))
    · exact addRoundKey_stops hn he (.inr ha)
    · exact blockCommand_stops hn hi he (.inr (.inr ha))
    · exact keyCommand_stops hn hi he ha
    · exact messageCommand_stops hn hi he ha

end Sys2Proof.Machine

/-! PROOFS. The decoder, class by class of command word, its agreement with the encoder, and polling STATUS
(30_encoding.md R101 to R109). -/

namespace Sys2Proof.Laws.EncodeDecode

/-- The laws of the single commands, together. -/
theorem statement (i : Instr) : Statement i :=
  i.casesOn nop gfMul gfMod gfDiv gfGcd gfInv gfMulmod sbox invSbox mixcol invMixcol altMixcol invAltMixcol rcon
    keyExpand keyExpandRot keyExpandNorot subBytes invSubBytes shiftRows invShiftRows mixColumns invMixColumns
    altMixColumns invAltMixColumns addRoundKey encryptBlock decryptBlock ecbEncrypt ecbDecrypt pad configure

end Sys2Proof.Laws.EncodeDecode

namespace Sys2Proof.Machine

open Sys2Proof.Statements

/-! The fields of a command word, as arithmetic on its value. -/

theorem opcField_eq (w : Word) : opcField w = w.toNat % 2 ^ 8 := by
  rw [opcField, BitVec.extractLsb'_toNat, Nat.shiftRight_zero]

theorem rndField_eq (w : Word) : rndField w = w.toNat / 2 ^ 16 % 2 ^ 4 := by
  rw [rndField, BitVec.extractLsb'_toNat, Nat.shiftRight_eq_div_pow]

theorem rndField_lt (w : Word) : rndField w < 16 := by
  rw [rndField_eq]
  exact Nat.mod_lt _ (by decide)

theorem extract_eq_zero_iff {w : Word} {lo n : Nat} : w.extractLsb' lo n = 0 ↔ w.toNat / 2 ^ lo % 2 ^ n = 0 := by
  rw [← BitVec.toNat_inj, BitVec.extractLsb'_toNat, Nat.shiftRight_eq_div_pow, BitVec.ofNat_eq_ofNat,
    BitVec.toNat_ofNat, Nat.zero_mod]

/-- A field that reaches up to bit 31 is 0 when the word ends below it. -/
theorem extract_top_eq_zero_iff {w : Word} (lo n : Nat) (h : lo + n = 32) :
    w.extractLsb' lo n = 0 ↔ w.toNat / 2 ^ lo = 0 := by
  have hlt : w.toNat / 2 ^ lo < 2 ^ n := Nat.div_lt_of_lt_mul (by rw [← Nat.pow_add, h]; exact w.isLt)
  rw [extract_eq_zero_iff, Nat.mod_eq_of_lt hlt]

/-! The decoder on each class of words: 0x39, the reserved opcodes, the rest. -/

theorem lookup_eq_none_iff_keys {o : Nat} {rows : List (Nat × Instr)} :
    rows.lookup o = none ↔ o ∉ rows.map Prod.fst := by
  rw [List.lookup_eq_none_iff, List.mem_map]
  simp only [bne_iff_ne, not_exists, not_and]
  exact forall₂_congr fun _ _ => ne_comm

/-- The opcodes of format N lie in seven ranges. -/
theorem opcodesN_keys : opcodesN.map Prod.fst =
    List.range' 0x00 7 ++ List.range' 0x10 7 ++ List.range' 0x20 3 ++ List.range' 0x31 8 ++ List.range' 0x3A 2 ++
      List.range' 0x40 3 ++ List.range' 0x50 1 := rfl

/-- R106 (a) lists exactly the values of OPC that no row of the opcode map has. -/
theorem reservedOpc_iff (w : Word) :
    reservedOpc (opcField w) ↔ opcField w ≠ 0x39 ∧ opcodesN.lookup (opcField w) = none := by
  have hlt : opcField w < 256 := BitVec.isLt _
  simp only [lookup_eq_none_iff_keys, opcodesN_keys, List.mem_append, List.mem_range'_1, reservedOpc]
  omega

theorem decode_formatK {w : Word} (hK : opcField w = 0x39) :
    decode w = if w.toNat / 2 ^ 9 % 2 ^ 7 = 0 ∧ w.toNat / 2 ^ 20 = 0 then .ok (.addRoundKey (selField w) (rndField w))
      else .error .formatKBits := by
  rw [decode, if_pos hK]
  simp only [extract_eq_zero_iff (lo := 9), extract_top_eq_zero_iff 20 12 rfl]

theorem decode_reserved {w : Word} (hR : reservedOpc (opcField w)) : decode w = .error .reservedOpcode := by
  obtain ⟨hK, hnone⟩ := (reservedOpc_iff w).1 hR
  rw [decode, if_neg hK, hnone]

/-- Every other OPC is that of a format-N row, and the rest of the word must be 0 (30_encoding.md R101, R107). -/
theorem decode_formatN {w : Word} (hK : opcField w ≠ 0x39) (hR : ¬ reservedOpc (opcField w)) :
    ∃ i, (∀ sel rnd, i ≠ .addRoundKey sel rnd) ∧
      decode w = if w.toNat / 2 ^ 8 = 0 then .ok i else .error .formatNBits := by
  rw [reservedOpc_iff, not_and] at hR
  obtain ⟨i, hi⟩ := Option.ne_none_iff_exists'.1 (hR hK)
  refine ⟨i, ?_, ?_⟩
  · rintro sel rnd rfl
    obtain ⟨l₁, l₂, hl, -⟩ := List.lookup_eq_some_iff.1 hi
    have hmem : (opcField w, Instr.addRoundKey sel rnd) ∈ opcodesN := hl ▸ List.mem_append_right _ List.mem_cons_self
    simp [opcodesN, opcodesGf, opcodesTables, opcodesBlock, opcodesFrame] at hmem
  · rw [decode, if_neg hK, hi]
    simp only [extract_top_eq_zero_iff 8 24 rfl]

/-! The opcode map, and encoding. -/

/-- The format-N rows of 30_encoding.md R105: each is the word of its command. -/
theorem decode_of_mem_formatNWords : ∀ p ∈ formatNWords, decode p.1 = .ok p.2 := by
  have rows : ∀ p ∈ formatNWords, encode p.2 = p.1 ∧ p.2.wellFormed = true := by decide
  intro p hp
  obtain ⟨hword, hwf⟩ := rows p hp
  exact hword ▸ Laws.EncodeDecode.statement p.2 hwf

/-- The ADD_ROUND_KEY word of 30_encoding.md R105 as a sum of its fields. -/
theorem encodeK_eq (sel : Sched) {rnd : Nat} (h : rnd < 16) :
    encodeK sel rnd = BitVec.ofNat 32 (rnd * 2 ^ 16 + (if sel = .b then 2 ^ 8 else 0) + 0x39) := by
  have rows : ∀ rnd < 16, ∀ sel ∈ [Sched.a, .b],
      encodeK sel rnd = BitVec.ofNat 32 (rnd * 2 ^ 16 + (if sel = .b then 2 ^ 8 else 0) + 0x39) := by decide
  exact rows rnd h sel (by cases sel <;> decide)

theorem selField_eq_b_iff {w : Word} : selField w = .b ↔ w.toNat / 2 ^ 8 % 2 = 1 := by
  have hbit := extract_eq_zero_iff (w := w) (lo := 8) (n := 1)
  unfold selField
  split
  next h => simpa using hbit.1 h
  next h => simpa using mt hbit.2 h

/-- A format-K word is put together again from its fields when its other bits are 0. -/
theorem encodeK_fields {w : Word} (hK : opcField w = 0x39)
    (h0 : w.toNat / 2 ^ 9 % 2 ^ 7 = 0 ∧ w.toNat / 2 ^ 20 = 0) : encodeK (selField w) (rndField w) = w := by
  have hsum : w.toNat / 2 ^ 16 % 2 ^ 4 * 2 ^ 16 + (if w.toNat / 2 ^ 8 % 2 = 1 then 2 ^ 8 else 0) + 0x39 = w.toNat := by
    rw [opcField_eq] at hK
    split <;> omega
  rw [encodeK_eq _ (rndField_lt w), rndField_eq]
  simp only [selField_eq_b_iff, hsum, BitVec.ofNat_toNat, BitVec.setWidth_eq]

/-- ADD_ROUND_KEY is decoded only from its own word. -/
theorem encode_of_decode_formatK {w : Word} {sel : Sched} {rnd : Nat} (h : decode w = .ok (.addRoundKey sel rnd)) :
    rnd < 16 ∧ encodeK sel rnd = w := by
  by_cases hK : opcField w = 0x39
  · rw [decode_formatK hK] at h
    split at h
    next h0 =>
      cases h
      exact ⟨rndField_lt w, encodeK_fields hK h0⟩
    next => cases h
  by_cases hR : reservedOpc (opcField w)
  · cases (decode_reserved hR).symm.trans h
  · obtain ⟨i, hi, hd⟩ := decode_formatN hK hR
    rw [hd] at h
    split at h
    · cases h
      exact absurd rfl (hi sel rnd)
    · cases h

/-- Settles O1: the format-N rows one by one, the format-K words by the encoder's sum. -/
theorem opcodeMapDecodes : Obligations.OpcodeMapDecodes := by
  refine ⟨decode_of_mem_formatNWords, fun rnd h => ?_⟩
  have word (sel : Sched) : decode (BitVec.ofNat 32 (rnd * 2 ^ 16 + (if sel = .b then 2 ^ 8 else 0) + 0x39)) =
      .ok (.addRoundKey sel rnd) := encodeK_eq sel h ▸ Laws.EncodeDecode.addRoundKey sel rnd (decide_eq_true h)
  exact ⟨by simpa using word .a, by simpa using word .b⟩

/-- Settles O2: a word is put together again from the fields it decodes to, and a command's word decodes to it. -/
theorem decodeEncodeAgree : Obligations.DecodeEncodeAgree := by
  refine fun w i => ⟨fun h => ?_, fun ⟨hwf, hw⟩ => hw ▸ Laws.EncodeDecode.statement i hwf⟩
  cases i with
  | addRoundKey sel rnd => exact (encode_of_decode_formatK h).imp_left decide_eq_true
  | _ => exact ⟨rfl, encode_of_decode_formatN h nofun⟩

/-! Illegal words. -/

theorem finish_eq_closed (e : ErrCode) (s : State) : s.finish e = closed e s := by cases e <;> rfl

/-- The sequencer refuses a word that decodes to no command (30_encoding.md R106). -/
theorem step_illegal {s : State} {w : Word} {e : Illegal} (hw : s.sequencerWord = some w) (he : decode w = .error e) :
    step s = .next (closed .illegalCmd s) := by
  rw [step_sequencer hw, runCommand, he, ← finish_eq_closed]
  rfl

/-- Settles O3: the decoder's answer on each class of words, and the step that completes an illegal one. -/
theorem illegalWordsRaise : Obligations.IllegalWordsRaise := by
  intro w
  simp only [← opcField_eq, ne_eq, ← not_and_or]
  rw [← and_assoc, ← and_assoc]
  refine ⟨?_, fun e he s hp hturn => step_illegal (sequencerWord_eq_some.2 ⟨hp, hturn⟩) he⟩
  by_cases hK : opcField w = 0x39
  · have hR : ¬ reservedOpc (opcField w) := fun hR => ((reservedOpc_iff w).1 hR).1 hK
    rw [decode_formatK hK]
    split <;> simp_all
  by_cases hR : reservedOpc (opcField w)
  · simp [decode_reserved hR, hR, hK]
  · obtain ⟨i, -, hi⟩ := decode_formatN hK hR
    rw [hi]
    split <;> simp_all

/-! Polling STATUS. -/

theorem step_poll {s : State} {rest : List HostMove} (h : hostTurn s) (hh : s.host = .poll :: rest) :
    step s = .next (hostPoll rest s.countMove) := by
  rw [step_host (sequencerWord_of_hostTurn h (by simp [hh])), hostStep, hh]

theorem run_succ {M : Host.Core} {s t : M.State} (n : Nat) (h : M.step s = .next t) : M.run (n + 1) s = M.run n t := by
  rw [Host.Core.run, h]

/-- A poll while BUSY = 1 changes the delay and the polled data alone, and is done again. -/
theorem hostPoll_busy {s : State} {rest : List HostMove} (hb : s.status.busy = true) (hh : s.host = .poll :: rest) :
    hostPoll rest s.countMove = { s with delay := s.delay - 1, rdata := some s.status.word } := by
  simp [hostPoll, State.countMove, hb, ← hh]

/-- The delay counts the polls of a pending command. -/
theorem run_polls {rest : List HostMove} (n : Nat) {s : State} (hn : s.delay = n) (hb : s.status.busy = true)
    (hh : s.host = .poll :: rest) : ∃ r, Host.Core.run core n s = .next { s with delay := 0, rdata := r } := by
  induction n generalizing s with
  | zero =>
    have hs : s = { s with delay := 0, rdata := s.rdata } := by rw [← hn]
    exact ⟨s.rdata, congrArg Host.Outcome.next hs⟩
  | succ n ih =>
    have hstep := step_poll (.inr (by omega)) hh
    rw [hostPoll_busy hb hh, hn] at hstep
    rw [run_succ (M := core) n hstep]
    exact ih (s := { s with delay := n, rdata := some s.status.word }) rfl hb hh

/-- Settles O56: each poll brings the delay one nearer to 0, where it is the sequencer's turn. -/
theorem waitLeavesItsLoop : Obligations.WaitLeavesItsLoop := by
  refine ⟨fun s w rest hp hb hh => ?_, fun s rest hp hb hh => ?_⟩
  · obtain ⟨r, hr⟩ := run_polls s.delay rfl hb hh
    exact ⟨r, hr, step_sequencer (sequencerWord_eq_some.2 ⟨hp, .inl rfl⟩)⟩
  · rw [step_poll (.inl hp) hh]
    simp [hostPoll, State.countMove, movedOn, hb]

end Sys2Proof.Machine

/-! PROOFS. Key expansion as a recurrence on the words in order (42_key_schedule.md R180 to R185). -/

namespace Sys2Proof.Machine

open Sys2Proof.Statements

/-! The seed words. -/

/-- Word j of a byte sequence is its bytes 4*j to 4*j + 3 (43_block_transform.md R200). -/
theorem wordAt_load {n j : Nat} {bs : List Byte} (h : bs.length = 4 * n) (hj : j < n) :
    wordAt (load bs) j = ⟨bs.getD (4 * j) 0, bs.getD (4 * j + 1) 0, bs.getD (4 * j + 2) 0, bs.getD (4 * j + 3) 0⟩ := by
  have hlt : j < (load bs).length := by rwa [load_length n bs h]
  have hq := List.getElem?_eq_getElem hlt
  obtain ⟨h0, h1, h2, h3⟩ := flatten_load n bs h ▸ flatten_getElem? _ _ _ hq
  simp [wordAt, List.getD, hq, h0, h1, h2, h3]

theorem stretch_getD (k : List Byte) {n j : Nat} (hj : j < n) :
    (stretch k n).getD j 0 = k.getD (j % k.length) 0 := by
  simp [stretch, List.getD, hj]

/-- The seed words are the key stretched cyclically (42_key_schedule.md R181, R182). -/
theorem wordAt_seedWords (k : List Byte) {nk j : Nat} (hj : j < nk) :
    wordAt (seedWords nk k) j =
      ⟨k.getD (4 * j % k.length) 0, k.getD ((4 * j + 1) % k.length) 0, k.getD ((4 * j + 2) % k.length) 0,
        k.getD ((4 * j + 3) % k.length) 0⟩ := by
  rw [seedWords, wordAt_load (stretch_length k _) hj]
  simp only [stretch_getD k (show 4 * j < 4 * nk by omega), stretch_getD k (show 4 * j + 1 < 4 * nk by omega),
    stretch_getD k (show 4 * j + 2 < 4 * nk by omega), stretch_getD k (show 4 * j + 3 < 4 * nk by omega)]

/-! The recurrence. The model holds the words newest first; the words in order are the reverse of its list. -/

theorem wordAt_of_prefix {l w : List Quad} {j : Nat} (h : l <+: w) (hj : j < l.length) : wordAt w j = wordAt l j := by
  obtain ⟨r, rfl⟩ := h
  exact List.getD_append l r Quad.zero j hj

/-- Position p of the words before index i, newest first, is word i - 1 - p. -/
theorem getD_reverse_take {w : List Quad} {i p : Nat} (hi : i ≤ w.length) (hp : p < i) :
    (w.take i).reverse.getD p Quad.zero = wordAt w (i - 1 - p) := by
  have hl : (w.take i).length = i := List.length_take_of_le hi
  rw [List.getD, List.getElem?_reverse (by omega), hl, List.getElem?_take_of_lt (by omega), wordAt, List.getD]

/-- The words already there are kept. -/
theorem expandFrom_prefix (nb nk : Nat) (rot : Bool) (n i : Nat) (ws : List Quad) :
    ws.reverse <+: (expandFrom nb nk rot n i ws).reverse := by
  induction n generalizing i ws with
  | zero => exact ⟨[], List.append_nil _⟩
  | succ n ih =>
    refine List.IsPrefix.trans ?_ (ih (i + 1) (nextWord nb nk rot i ws :: ws))
    exact ⟨_, List.reverse_cons.symm⟩

/-- Each word added is the next word after those before it. -/
theorem wordAt_expandFrom {nb nk n i j : Nat} {rot : Bool} {ws : List Quad} (hi : ws.length = i) (hij : i ≤ j)
    (hj : j < i + n) :
    wordAt (expandFrom nb nk rot n i ws).reverse j =
      nextWord nb nk rot j ((expandFrom nb nk rot n i ws).reverse.take j).reverse := by
  induction n generalizing i ws with
  | zero => omega
  | succ n ih =>
    rcases Nat.eq_or_lt_of_le hij with rfl | hlt
    · obtain rfl : ws.reverse.length = i := (List.length_reverse).trans hi
      have hold := expandFrom_prefix nb nk rot (n + 1) ws.reverse.length ws
      have hnew := expandFrom_prefix nb nk rot n (ws.reverse.length + 1) (nextWord nb nk rot ws.reverse.length ws :: ws)
      rw [← List.prefix_iff_eq_take.1 hold, List.reverse_reverse]
      refine (wordAt_of_prefix hnew (by simp)).trans ?_
      simp [wordAt]
    · exact ih (by simp [hi]) hlt (by omega)

/-- NR is an entry of NR_TABLE (41_tables_operators.md R166). -/
theorem rounds_bounds {c : Cfg} (h : c.legal) : 1 ≤ c.rounds ∧ c.rounds ≤ 14 := by
  have hn := nrTable_bounds c.nk c.nb
  rwa [Cfg.rounds, h, BitVec.toNat_ofNat, Nat.mod_eq_of_lt (by omega)]

theorem nkWords_le_schedLen {c : Cfg} (h : c.legal) : c.nkWords ≤ c.schedLen := by
  have hr : 2 ≤ c.rounds + 1 := Nat.succ_le_succ (rounds_bounds h).1
  calc c.nkWords ≤ 2 * 4 := (nkWords_pos c).2
    _ ≤ c.schedLen := Nat.mul_le_mul hr (nbWords_pos c).1

/-- Under a legal CFG no seed word is cut off. -/
theorem expand_eq {c : Cfg} (h : c.legal) (k : List Byte) (rot : Bool) :
    expand c k rot = (expandFrom c.nbWords c.nkWords rot (c.schedLen - c.nkWords) c.nkWords
      (seedWords c.nkWords k).reverse).reverse := by
  refine List.take_of_length_le ?_
  have := nkWords_le_schedLen h
  simp only [List.length_reverse, expandFrom_length, seedWords_length]
  omega

/-- An expansion starts with the seed words (42_key_schedule.md R182). -/
theorem wordAt_expand_seed {c : Cfg} (h : c.legal) (k : List Byte) (rot : Bool) {j : Nat} (hj : j < c.nkWords) :
    wordAt (expand c k rot) j = wordAt (seedWords c.nkWords k) j := by
  have hseed := expandFrom_prefix c.nbWords c.nkWords rot (c.schedLen - c.nkWords) c.nkWords
    (seedWords c.nkWords k).reverse
  rw [List.reverse_reverse, ← expand_eq h] at hseed
  exact wordAt_of_prefix hseed (by rwa [seedWords_length])

/-- Each later word from the word before and the one NK before (42_key_schedule.md R183). -/
theorem wordAt_expand {c : Cfg} (h : c.legal) (k : List Byte) (rot : Bool) {i : Nat} (hi : c.nkWords ≤ i)
    (hlt : i < c.schedLen) :
    wordAt (expand c k rot) i =
      let t := wordAt (expand c k rot) (i - 1)
      (if i % c.nkWords = 0 then addRcon (rcon (i / c.nbWords)) (subWord (if rot then rotWord t else t)) else t).xor
        (wordAt (expand c k rot) (i - c.nkWords)) := by
  have hnk := nkWords_pos c
  have hle : i ≤ (expand c k rot).length := by
    rw [expand_length]
    exact hlt.le
  have hnext : wordAt (expand c k rot) i =
      nextWord c.nbWords c.nkWords rot i ((expand c k rot).take i).reverse := by
    rw [expand_eq h]
    exact wordAt_expandFrom (by simp) hi (by omega)
  rw [hnext, nextWord, getD_reverse_take hle (by omega), getD_reverse_take hle (by omega),
    show i - 1 - (c.nkWords - 1) = i - c.nkWords by omega, Nat.sub_zero]

/-- The RCon index of a schedule word stays inside the table (41_tables_operators.md R162). -/
theorem rconIndex_lt {c : Cfg} (h : c.legal) {i : Nat} (hlt : i < c.schedLen) : i / c.nbWords < 15 := by
  have hi : i / c.nbWords < c.rounds + 1 := Nat.div_lt_of_lt_mul (by rwa [Nat.mul_comm])
  have hr := rounds_bounds h
  omega

/-- Settles O27: the seed words are kept, and every later word is the model's next word after those before it. -/
theorem expandFollowsTheRecurrence : Obligations.ExpandFollowsTheRecurrence := by
  intro c k rot h _
  dsimp only
  rw [expand_length]
  refine ⟨rfl, fun j hj => ?_, fun i hi hlt hmod => ?_, fun i hi hlt hmod => ⟨rconIndex_lt h hlt, ?_⟩⟩
  · rw [wordAt_expand_seed h k rot hj, wordAt_seedWords k hj]
  · exact (wordAt_expand h k rot hi hlt).trans (congrArg (Quad.xor · _) (if_neg hmod))
  · exact (wordAt_expand h k rot hi hlt).trans (congrArg (Quad.xor · _) (if_pos hmod))

end Sys2Proof.Machine

/-! PROOFS. The key schedule's commands and ADD_ROUND_KEY (42_key_schedule.md R186 to R192, 43_block_transform.md
R223). -/

namespace Sys2Proof.Machine

open Sys2Proof.Statements

/-! A schedule written: it reads back, and what it leaves of memory. -/

section Schedule

variable {s : State} {sel : Sched} {k : List Byte} {rot : Bool}

theorem readSchedule_putSchedule :
    readSchedule sel (s.putSchedule sel (expand s.cfg k rot)) = .ok (expand s.cfg k rot) := by
  have hread := readQuads_putWindow s.mem (schedWindow sel) (expand s.cfg k rot) s.draws
  rwa [expand_length] at hread

/-- Under a legal CFG nothing outside the schedule's window is written. -/
theorem byteAt_putSchedule_outside_window {a : Nat} (hl : s.cfg.legal) (ha : ¬ inRange (schedWindow sel).base 480 a) :
    (s.putSchedule sel (expand s.cfg k rot)).mem.byteAt a = s.mem.byteAt a := by
  have hlen := schedLen_le_of_legal hl
  have hsize := (schedWindow_bounds sel).2.2
  simp only [inRange, not_and, not_lt] at ha
  refine byteAt_putWindow_outside _ _ _ _ _ ?_
  rw [flatten_length, expand_length]
  omega

theorem readSchedule_putSchedule_other {sel' : Sched} (hl : s.cfg.legal) (h : sel' ≠ sel) :
    readSchedule sel' (s.putSchedule sel (expand s.cfg k rot)) = readSchedule sel' s := by
  have hapart := schedWindow_disjoint h
  refine readSchedule_congr hl rfl fun a ha ha' => byteAt_putSchedule_outside_window hl ?_
  simp only [inRange]
  omega

/-- A result keeps which bytes hold a value outside it (10_state.md R44; log 8). -/
theorem byteAt_putWindow_isSome (m : Memory) (w : Window) (bs : List Byte) (d : Nat) {a : Nat}
    (ha : ¬ inRange w.base bs.length a) : ((m.putWindow w bs d).byteAt a).isSome = (m.byteAt a).isSome := by
  rw [Memory.putWindow, byteAt_setBytes, if_neg (by exact ha), byteAt_forget_isSome]

theorem byteAt_putSchedule_isSome {a : Nat} (ha : ¬ inRange (schedWindow sel).base (4 * s.cfg.schedLen) a) :
    ((s.putSchedule sel (expand s.cfg k rot)).mem.byteAt a).isSome = (s.mem.byteAt a).isSome :=
  byteAt_putWindow_isSome _ _ _ _ (by rwa [flatten_length, expand_length])

end Schedule

/-! KEY_EXPAND. -/

/-- KEY_EXPAND: one of the two errors, or its result. -/
theorem execKeyExpand_next {s t : State} :
    execKeyExpand s = .next t ↔
      (s.keyLen.toNat < 2 ∧ t = s.finish .keyLength) ∨
      (2 ≤ s.keyLen.toNat ∧ keyBufBytes < s.keyLen.toNat ∧ t = s.finish .length) ∨
      (2 ≤ s.keyLen.toNat ∧ s.keyLen.toNat ≤ keyBufBytes ∧
        ∃ k, readKey s = .ok k ∧ t = (s.putSchedules k).finish .ok) := by
  simp [execKeyExpand, withKeyLength_next, afterRead_next, complete_next]

section SplitKey

variable {s : State} {k : List Byte}

theorem readSchedule_a_putSchedules (hl : s.cfg.legal) :
    readSchedule .a (s.putSchedules k) = .ok (expand s.cfg (k.take (k.length / 2)) true) :=
  (readSchedule_putSchedule_other (sel := .b) (sel' := .a) (s := s.putSchedule .a (scheduleA s.cfg k)) hl nofun).trans
    readSchedule_putSchedule

theorem readSchedule_b_putSchedules :
    readSchedule .b (s.putSchedules k) = .ok (expand s.cfg (k.drop (k.length / 2)) false) :=
  readSchedule_putSchedule (s := s.putSchedule .a (scheduleA s.cfg k))

theorem byteAt_putSchedules_outside_windows {a : Nat} (hl : s.cfg.legal) (ha : ¬ inSchedules a) :
    (s.putSchedules k).mem.byteAt a = s.mem.byteAt a :=
  (byteAt_putSchedule_outside_window (s := s.putSchedule .a _) (sel := .b) hl (mt .inr ha)).trans
    (byteAt_putSchedule_outside_window (sel := .a) hl (mt .inl ha))

theorem byteAt_putSchedules_isSome {a : Nat} (hA : ¬ inRange 0x200 (4 * s.cfg.schedLen) a)
    (hB : ¬ inRange 0x400 (4 * s.cfg.schedLen) a) :
    ((s.putSchedules k).mem.byteAt a).isSome = (s.mem.byteAt a).isSome :=
  (byteAt_putSchedule_isSome (s := s.putSchedule .a _) (sel := .b) hB).trans (byteAt_putSchedule_isSome (sel := .a) hA)

theorem finish_putSchedules :
    (s.putSchedules k).finish .ok =
      closed .ok { s with mem := (s.putSchedules k).mem, status := bothValid s.status } := finish_eq_closed _ _

end SplitKey

/-- Settles O28: the command's cases, and what writing the two schedules leaves. -/
theorem keyExpandResult : Obligations.KeyExpandResult := by
  refine ⟨Laws.EncodeDecode.keyExpand rfl, fun s => ⟨fun h => ?_, fun h => ?_, fun k h2 h64 hl hk => ?_⟩⟩
  · exact execKeyExpand_next.2 (.inl ⟨h, rfl⟩)
  · exact execKeyExpand_next.2 (.inr (.inl ⟨by omega, h, rfl⟩))
  · have hlen : k.length = s.keyLen.toNat := readKey_length hk
    have hfit := schedLen_le_of_legal hl
    refine ⟨(s.putSchedules k).finish .ok, execKeyExpand_next.2 (.inr (.inr ⟨h2, h64, k, hk, rfl⟩)), ?_, ?_,
      finish_putSchedules, fun a ha => byteAt_putSchedules_outside_windows hl ha, fun a ha => ?_⟩
    · exact hlen ▸ readSchedule_a_putSchedules hl
    · exact hlen ▸ readSchedule_b_putSchedules
    · simp only [inRange] at ha
      exact byteAt_putSchedules_isSome (by simp only [inRange]; omega) (by simp only [inRange]; omega)

/-! KEY_EXPAND_ROT and KEY_EXPAND_NOROT. -/

/-- The result of a whole-key command, for either schedule. -/
theorem expandWholeKey_result {s : State} {k : List Byte} (sel : Sched) (rot : Bool) (h1 : 1 ≤ s.keyLen.toNat)
    (h64 : s.keyLen.toNat ≤ 64) (hl : s.cfg.legal) (hk : readKey s = .ok k) :
    ∃ t, expandWholeKey sel rot s = .next t ∧ readSchedule sel t = .ok (expand s.cfg k rot) ∧
      t = closed .ok { s with mem := t.mem, status := s.status.setValid sel } ∧
      sameOutside (inRange (schedWindow sel).base 480) s t :=
  ⟨(s.putSchedule sel (expand s.cfg k rot)).finish .ok,
    expandWholeKey_next.2 (.inr (.inr ⟨h1, h64, k, hk, rfl⟩)), readSchedule_putSchedule, finish_eq_closed _ _,
    fun _ ha => byteAt_putSchedule_outside_window hl ha⟩

theorem expandWholeKey_empty {s : State} (sel : Sched) (rot : Bool) (h : s.keyLen.toNat = 0) :
    expandWholeKey sel rot s = .next (closed .keyLength s) := expandWholeKey_next.2 (.inl ⟨by omega, rfl⟩)

theorem expandWholeKey_tooLong {s : State} (sel : Sched) (rot : Bool) (h : 64 < s.keyLen.toNat) :
    expandWholeKey sel rot s = .next (closed .length s) :=
  expandWholeKey_next.2 (.inr (.inl ⟨by omega, h, rfl⟩))

/-- Settles O29: both commands are the expansion of the whole key into one schedule. -/
theorem wholeKeyCommandResults : Obligations.WholeKeyCommandResults :=
  ⟨⟨Laws.EncodeDecode.keyExpandRot rfl, Laws.EncodeDecode.keyExpandNorot rfl⟩, fun _ =>
    ⟨fun h => ⟨expandWholeKey_empty .a true h, expandWholeKey_empty .b false h⟩,
      fun h => ⟨expandWholeKey_tooLong .a true h, expandWholeKey_tooLong .b false h⟩,
      fun _ h1 h64 hl hk => ⟨expandWholeKey_result .a true h1 h64 hl hk, expandWholeKey_result .b false h1 h64 hl hk⟩⟩⟩

/-! ADD_ROUND_KEY. -/

/-- Columns written read back. -/
theorem readColumns_putColumns {s : State} {cols : List Quad} (h : cols.length = s.cfg.nbWords) :
    readColumns (s.putColumns cols) = .ok cols := by
  have hlen : (flatten cols).length = 4 * s.cfg.nbWords := by rw [flatten_length, h]
  refine readQuads_ok.2 ⟨flatten cols, ?_, load_flatten cols⟩
  exact (readBytes_setBytes _ _ _ _ hlen.ge).trans (by rw [List.take_of_length_le hlen.le])

section RoundKey

variable {w m : List Quad} {nb nr r : Nat}

theorem addRoundKey_roundKey_length (hw : w.length = (nr + 1) * nb) (hr : r ≤ nr) (hm : m.length = nb) :
    (addRoundKey m (roundKey w nb r)).length = nb := by
  rw [addRoundKey_length, roundKey_length w nb nr r hw hr, hm, Nat.min_self]

/-- Word c of round key r is schedule word r*NB + c (42_key_schedule.md R189). -/
theorem wordAt_roundKey {c : Nat} (hc : c < nb) : wordAt (roundKey w nb r) c = wordAt w (r * nb + c) := by
  rw [wordAt, List.getD, roundKey, List.getElem?_take_of_lt hc, List.getElem?_drop, wordAt, List.getD]

/-- AddRoundKey column by column (43_block_transform.md R205). -/
theorem wordAt_addRoundKey {rk : List Quad} {c : Nat} (hm : c < m.length) (hk : c < rk.length) :
    wordAt (addRoundKey m rk) c = (wordAt m c).xor (wordAt rk c) := by
  simp [wordAt, addRoundKey, List.getD, hm, hk]

theorem wordAt_addRoundKey_roundKey {c : Nat} (hw : w.length = (nr + 1) * nb) (hr : r ≤ nr) (hm : m.length = nb)
    (hc : c < nb) : wordAt (addRoundKey m (roundKey w nb r)) c = (wordAt m c).xor (wordAt w (r * nb + c)) := by
  have hk : c < (roundKey w nb r).length := by rwa [roundKey_length w nb nr r hw hr]
  rw [wordAt_addRoundKey (hm ▸ hc) hk, wordAt_roundKey hc]

end RoundKey

/-- Settles O32: the command's cases, the round key's words, and the columns written. -/
theorem addRoundKeyResult : Obligations.AddRoundKeyResult := by
  intro s sel rnd hrnd
  refine ⟨?_, fun hv => ?_, fun hv hr => ?_, fun w m hv hr hw hm => ?_⟩
  · exact encodeK_eq sel hrnd ▸ Laws.EncodeDecode.addRoundKey sel rnd (decide_eq_true hrnd)
  · exact execAddRoundKey_next.2 (.inl ⟨hv, rfl⟩)
  · exact execAddRoundKey_next.2 (.inr (.inl ⟨hv, hr, rfl⟩))
  · have hwl := readSchedule_length hw
    have hml := readColumns_length hm
    have hn := addRoundKey_roundKey_length hwl hr hml
    refine ⟨_, _, execAddRoundKey_next.2 (.inr (.inr ⟨hv, hr, w, m, hw, hm, rfl⟩)), readColumns_putColumns hn,
      fun c hc => wordAt_addRoundKey_roundKey hwl hr hml hc, finish_eq_closed _ _, fun a ha => ?_⟩
    simp only [inRange] at ha
    exact byteAt_putColumns_outside (by omega)

end Sys2Proof.Machine
